-- ==== Sys2Proof/Word.lean ====
section
/-! DEFINITION. The words of the block: bit patterns of the widths the spec gives (00_scope.md R4, R7, R8).

`uint(v)` of R8 is `BitVec.toNat`, `sint_N(v)` is `BitVec.toInt`, `trunc_N(i)` is `BitVec.ofInt N`, `{a, b}` is `a ++ b`;
`v[hi:lo]` is `BitVec.extractLsb' lo (hi - lo + 1) v` and `v[i]` is `BitVec.getLsbD v i`: bit 0 is the least significant
bit (R7). -/

namespace Sys2Proof

/-- `BYTE_WIDTH` = 8 (R4). -/
abbrev Byte := BitVec 8

/-- A command word, `CMD_WIDTH` = 24 bits (R4, R40). -/
abbrev CmdWord := BitVec 24

/-- A temperature code, `CODE_WIDTH` = 16 bits (R4, R52). -/
abbrev TempCode := BitVec 16

/-- A manufacturer code, `MFG_WIDTH` = 5 bits (R4, R53). -/
abbrev MfgCode := BitVec 5

/-- A revision code, `REV_WIDTH` = 3 bits (R4, R53). -/
abbrev RevCode := BitVec 3

/-- A Fahrenheit numerator over 640, `FAHR_WIDTH` = 20 bits (R4, R15). -/
abbrev FahrCode := BitVec 20

/-- A fault code, 8 bits (R10, R83). -/
abbrev ErrCode := BitVec 8

end Sys2Proof
end

