-- ==== Sys2Proof/Config.lean ====
section
/-! DEFINITION. The parameters of 00_scope.md R4: constant for the life of the block (R27 (g)), so not state.

The OPEN parameters have no body: nothing in Lean knows a value of them (log entry 11, DESIGN CHOICE, safe). No rule of the block reads one. -/

namespace Sys2Proof.Config

/-- `TWOS_MODULUS` = 65536 (R4). -/
def twosModulus : Int := 65536

/-- 2^`FRAC_BITS` = 128, the Celsius divisor (R4). -/
def celsiusDenominator : Nat := 128

/-- `F_MUL` = 9 (R4). -/
def fahrMul : Int := 9

/-- `F_DIV` = 5 (R4). -/
def fahrDiv : Int := 5

/-- `F_OFF` = 32 (R4). -/
def fahrOffset : Int := 32

/-- `FAHR_DEN` = 640 (R4, decision D8). -/
def fahrDenominator : Nat := 640

/-- 32 * 640, the offset of the Fahrenheit numerator (R70, R71). -/
def fahrNumeratorOffset : Int := 20480

/-- `KNOWN_VENDOR_CODES` = { 0b11001 } (R4, R65, 90_conflicts.md C1). -/
def knownVendorCodes : List MfgCode := [0b11001#5]

/-- `KNOWN_VENDOR_NAME[0b11001]`, a string of the host (R4, R67). -/
def knownVendorName : String := "Analog Devices"

/-- `UNKNOWN_VENDOR_NAME`, the host's placeholder (R4, R67). -/
def unknownVendorName : String := "unknown"

/-- `CFG_BYTE` = 0x80 (R4, R54; its bits 6:0 are the spec's general knowledge, decision D12: log entry 12, PRESUMED, unsafe). -/
def cfgByte : Byte := 0x80#8

/-- `I2C_ADDR` = 0x49, the sensor's bus address, outside the block (R4, R34). -/
def i2cAddr : Nat := 0x49

/-- `REG_ID`, OPEN (R4, R34, N7). -/
opaque regId : Nat

/-- `REG_CONFIG`, OPEN (R4, R34, N7). -/
opaque regConfig : Nat

/-- `REG_TEMP_MSB`, OPEN (R4, R34, N7). -/
opaque regTempMsb : Nat

/-- `REG_TEMP_LSB`, OPEN (R4, R34, N7). -/
opaque regTempLsb : Nat

/-- `POLL_INTERVAL` in seconds, OPEN (R4, R102). -/
opaque pollInterval : Rat

end Sys2Proof.Config
end

