-- ==== Sys2Proof/Machine/Operands.lean ====
section
/-! DEFINITION. Operand assembly and the bit fields and arithmetic the commands use (30_encoding.md R43, R52 to R54;
20_memory.md R30). -/

namespace Sys2Proof.Machine

/-- Form H: `imm16 = {a, b}`, the document's `(msb<<8)|lsb`, most significant byte first (R30, R43). -/
def imm16 (a b : Byte) : TempCode := a ++ b

/-- `manufacturer_code = id[7:3]` (R53, R64). -/
def mfgField (id : Byte) : MfgCode := id.extractLsb' 3 5

/-- `revision_code = id[2:0]` (R53, R64). -/
def revField (id : Byte) : RevCode := id.extractLsb' 0 3

/-- The resolution bit of a control byte, bit `RES_BIT` = 7 (R54, R76). -/
def resolutionBit (byte : Byte) : Bool := byte.getLsbD 7

/-- The vendor match against a table of known codes (R65; the table is a parameter, 90_conflicts.md C1). -/
def vendorKnown (codes : List MfgCode) (m : MfgCode) : Bool := codes.contains m

/-- `num = 9 * n + 20480` with `n = sint_16(code)`, an exact integer (R70). -/
def fahrNumerator (c : TempCode) : Int := Config.fahrMul * c.toInt + Config.fahrNumeratorOffset

/-- `trunc_20(num)` (R70). -/
def fahrCode (c : TempCode) : FahrCode := BitVec.ofInt 20 (fahrNumerator c)

end Sys2Proof.Machine
end

