-- ==== Sys2Proof/Syntax.lean ====
section
/-! DEFINITION. The five commands of spec/opcode_table.json, one constructor a row (30_encoding.md R44). -/

namespace Sys2Proof

/-- A command. Every operand byte is legal (R55, R63, R70, R76), so every term is a well-formed command: the width is
in the type. -/
inductive Instr where
  /-- `NOP` (R75). -/
  | nop
  /-- `DECT msb, lsb` (R55). -/
  | dect (msb lsb : Byte)
  /-- `DECI id` (R63). -/
  | deci (id : Byte)
  /-- `CVTF hi, lo` (R70). -/
  | cvtf (hi lo : Byte)
  /-- `CFG byte` (R76). -/
  | cfg (byte : Byte)
deriving DecidableEq, Repr

end Sys2Proof
end

