-- ==== Sys2Proof/WellFormed.lean ====
section
/-! DEFINITION. Which field values make a legal command word (30_encoding.md R41, R42, R46).

A term of `Instr` carries only its operand bytes, so it cannot be ill-formed; what can be ill-formed is a word, seen as
its three fields. `Fields.wellFormed` is that check. It is written from the forms of R42 and the opcode column of R44, not
from the decoder: that the decoder accepts exactly these fields is a statement (Obligations). -/

namespace Sys2Proof

/-- The three forms of R42. -/
inductive Form where
  /-- No operand: `a` and `b` must be 0x00. -/
  | z
  /-- One operand byte in `a`: `b` must be 0x00. -/
  | b
  /-- Two operand bytes. -/
  | h
deriving DecidableEq, Repr

/-- The fields `opc`, `a`, `b` of a command word (R41). -/
structure Fields where
  opc : Byte
  a : Byte
  b : Byte
deriving DecidableEq, Repr

/-- The form an operation code has in R44's map; none for the reserved codes 0x05 to 0xFF. -/
def formOfOpc (opc : Byte) : Option Form :=
  if opc = 0x00#8 then some .z
  else if opc = 0x01#8 then some .h
  else if opc = 0x02#8 then some .b
  else if opc = 0x03#8 then some .h
  else if opc = 0x04#8 then some .b
  else none

/-- The operation code is one of R44's five. -/
def Fields.opcKnown (f : Fields) : Bool := (formOfOpc f.opc).isSome

/-- `a` is 0x00 where the form does not use it (R42). -/
def Fields.aAllowed (f : Fields) : Bool := formOfOpc f.opc != some .z || f.a == 0x00#8

/-- `b` is 0x00 where the form does not use it (R42). -/
def Fields.bAllowed (f : Fields) : Bool := formOfOpc f.opc == some .h || f.b == 0x00#8

/-- The fields form a legal word (R42, R46). -/
def Fields.wellFormed (f : Fields) : Bool := f.opcKnown && f.aAllowed && f.bAllowed

/-- The form of a command (R42, R44). -/
def Instr.form : Instr → Form
  | .nop => .z
  | .dect _ _ => .h
  | .deci _ => .b
  | .cvtf _ _ => .h
  | .cfg _ => .b

end Sys2Proof
end

