-- ==== Sys2Proof/Decode.lean ====
section
/-! DEFINITION. From command words (and their bytes) to commands and back (30_encoding.md R40 to R46, R49, R50). -/

namespace Sys2Proof

/-! ## Fields of a word -/

/-- `opc = w[23:16]`, `a = w[15:8]`, `b = w[7:0]` (R41, R45). -/
def fieldsOf (w : CmdWord) : Fields :=
  { opc := w.extractLsb' 16 8, a := w.extractLsb' 8 8, b := w.extractLsb' 0 8 }

/-- The word `{opc, a, b}` (R41). -/
def wordOf (f : Fields) : CmdWord := f.opc ++ f.a ++ f.b

/-! ## Decoding -/

/-- Why a word is illegal. The block only knows `Illegal` (R45); the two names tell R46's cases apart (log entry 9, DESIGN CHOICE, safe). -/
inductive IllegalReason where
  /-- `opc` is 0x05 to 0xFF (R46). -/
  | reservedOpcode
  /-- An operand byte the form does not use is not 0x00 (R42, R46). -/
  | operandByteNotZero
deriving DecidableEq, Repr

/-- The outcome of decoding a word: one of the five commands, or `Illegal` (R45). -/
inductive Decoded where
  | command (i : Instr)
  | illegal (why : IllegalReason)
deriving DecidableEq, Repr

/-- R45's decision list, in its order, on the fields of a word. -/
def decodeFields (f : Fields) : Decoded :=
  if f.opc = 0x00#8 ∧ f.a = 0x00#8 ∧ f.b = 0x00#8 then .command .nop
  else if f.opc = 0x01#8 then .command (.dect f.a f.b)
  else if f.opc = 0x02#8 ∧ f.b = 0x00#8 then .command (.deci f.a)
  else if f.opc = 0x03#8 then .command (.cvtf f.a f.b)
  else if f.opc = 0x04#8 ∧ f.b = 0x00#8 then .command (.cfg f.a)
  else if f.opc.toNat < 0x05 then .illegal .operandByteNotZero
  else .illegal .reservedOpcode

/-- `decode(w)` of R45, total on all 2^24 words. -/
def decodeWord (w : CmdWord) : Decoded := decodeFields (fieldsOf w)

/-- The command a decoding found, if it found one. -/
def Decoded.instr? : Decoded → Option Instr
  | .command i => some i
  | .illegal _ => none

/-- A word as a platform stores or moves it: the bytes `opc`, `a`, `b` in that order (R49). -/
def bytesOfWord (w : CmdWord) : List Byte :=
  [(fieldsOf w).opc, (fieldsOf w).a, (fieldsOf w).b]

/-- The outcome of reading one command off a list of bytes. -/
inductive DecodedBytes where
  /-- A command, and the bytes after it. -/
  | command (i : Instr) (rest : List Byte)
  /-- Three bytes that make an illegal word, and the bytes after it. -/
  | illegal (why : IllegalReason) (rest : List Byte)
  /-- Fewer than three bytes: no command word (R40). -/
  | truncated
deriving DecidableEq, Repr

/-- Read one command off a list of bytes, total on every list (R40, R45, R49). -/
def decodeBytes : List Byte → DecodedBytes
  | opc :: a :: b :: rest =>
    match decodeWord (wordOf { opc := opc, a := a, b := b }) with
    | .command i => .command i rest
    | .illegal why => .illegal why rest
  | _ => .truncated

/-! ## Encoding -/

/-- The fields of a command's word (R44, R50). -/
def encodeFields : Instr → Fields
  | .nop => { opc := 0x00#8, a := 0x00#8, b := 0x00#8 }
  | .dect msb lsb => { opc := 0x01#8, a := msb, b := lsb }
  | .deci id => { opc := 0x02#8, a := id, b := 0x00#8 }
  | .cvtf hi lo => { opc := 0x03#8, a := hi, b := lo }
  | .cfg byte => { opc := 0x04#8, a := byte, b := 0x00#8 }

/-- The 24-bit word of a command (R50). -/
def encode (i : Instr) : CmdWord := wordOf (encodeFields i)

/-- The bytes of a command's word (R49). -/
def encodeBytes (i : Instr) : List Byte := bytesOfWord (encode i)

/-- The mnemonic of spec/opcode_table.json (R44). -/
def Instr.mnemonic : Instr → String
  | .nop => "NOP"
  | .dect _ _ => "DECT"
  | .deci _ => "DECI"
  | .cvtf _ _ => "CVTF"
  | .cfg _ => "CFG"

/-! ## The opcode map as a table -/

/-- One row of R44's map: its mnemonic, match and mask. -/
structure OpcodeRow where
  mnemonic : String
  pattern : CmdWord
  mask : CmdWord
deriving DecidableEq, Repr

/-- R44's map, row by row (spec/opcode_table.json). -/
def opcodeTable : List OpcodeRow :=
  [ { mnemonic := "NOP", pattern := 0x000000#24, mask := 0xFFFFFF#24 },
    { mnemonic := "DECT", pattern := 0x010000#24, mask := 0xFF0000#24 },
    { mnemonic := "DECI", pattern := 0x020000#24, mask := 0xFF00FF#24 },
    { mnemonic := "CVTF", pattern := 0x030000#24, mask := 0xFF0000#24 },
    { mnemonic := "CFG", pattern := 0x040000#24, mask := 0xFF00FF#24 } ]

/-- A word selects a row when `(w & mask) = match` (R44). -/
def OpcodeRow.selects (r : OpcodeRow) (w : CmdWord) : Bool := w &&& r.mask == r.pattern

/-! ## The table's own numbering of an instruction's bits -/

/-- The word whose bits spec/opcode_table.json numbers as `w`: one 24-bit word, bit 0 its least significant bit; bits
from `nbits` on are 0 (log entry 10, DESIGN CHOICE, safe). -/
def tableWord (nbits w : Nat) : CmdWord := BitVec.ofNat 24 (w % 2 ^ nbits)

/-- The command the decoder reads from an instruction given as the opcode table numbers its bits. -/
def decodeTableWord (nbits w : Nat) : Option Instr := (decodeWord (tableWord nbits w)).instr?

end Sys2Proof
end

