-- ==== Sys2Proof/Machine/State.lean ====
section
/-! DEFINITION. The state of the block (10_state.md R10 to R17), the input ports (R19), reset values (R28). -/

namespace Sys2Proof.Machine

/-- The block's state: exactly the twelve elements of R10. One-bit elements are `Bool`. An element that R28 says holds
no value after reset is an option, as R28 asks (log entry 1, DEDUCED, safe). -/
structure Block where
  /-- `TEMP`: the code `{msb, lsb}` of the last `DECT` (R11). -/
  temp : Option TempCode
  /-- `TV`: `TEMP` holds a value (R12). -/
  tv : Bool
  /-- `TSC`: the value `RES16` had when `TEMP` was last written (R12). -/
  tsc : Bool
  /-- `MFG`: the manufacturer code (R13). -/
  mfg : Option MfgCode
  /-- `REV`: the revision code (R13). -/
  rev : Option RevCode
  /-- `VK`: `MFG` is a known vendor code (R14). -/
  vk : Bool
  /-- `IDV`: the identity has been decoded (R14). -/
  idv : Bool
  /-- `FAHR`: the Fahrenheit numerator of the last `CVTF` (R15). -/
  fahr : Option FahrCode
  /-- `FV`: `FAHR` holds a value (R15). -/
  fv : Bool
  /-- `RES16`: the host reported 16-bit resolution (R16). -/
  res16 : Bool
  /-- `ERR`: the fault code, 0x00 for none (R17). -/
  err : ErrCode
  /-- `ECMD`: the command word that faulted (R17). -/
  ecmd : Option CmdWord
deriving DecidableEq, Repr

/-- What the input ports hold in one step (R19). -/
structure Pins where
  /-- `rst` -/
  rst : Bool
  /-- `cmd_valid` -/
  cmdValid : Bool
  /-- `cmd` -/
  cmd : CmdWord
deriving DecidableEq, Repr

/-- The ports while the host presents the command word `w` (R6, R19). -/
def Pins.command (w : CmdWord) : Pins := { rst := false, cmdValid := true, cmd := w }

/-- The ports while the host asserts `rst` and presents no command (R6, R19). -/
def Pins.reset : Pins := { rst := true, cmdValid := false, cmd := 0x000000#24 }

/-- The ports while the host presents nothing (R6, R19). -/
def Pins.idle : Pins := { rst := false, cmdValid := false, cmd := 0x000000#24 }

/-- The machine: the block, and what the host will present to its input ports, next one first. The list is the
environment's, not the block's (R22, R27 (f); log entry 2, DESIGN CHOICE, safe). An empty list: nothing is presented any more. -/
structure State where
  block : Block
  inputs : List Pins
deriving DecidableEq, Repr

/-- Reasons for the machine to stop. There is none: the block's next state is a total function of its state and the step
(R6), and its two faults are next states that record `ERR` and `ECMD` (R88; log entry 5, DEDUCED, safe). -/
inductive Fault where
deriving DecidableEq, Repr

/-- Reasons for the model to give an instruction no meaning. -/
inductive Refusal where
  /-- Raised by an arm of `exec` whose instruction has no meaning yet; no arm raises it any more. Safe. -/
  | notModelled (mnemonic : String)
deriving DecidableEq, Repr

/-- The state of the block after a `Reset` step (R28, R104). -/
def Block.reset : Block :=
  { temp := none, tv := false, tsc := false, mfg := none, rev := none, vk := false, idv := false, fahr := none,
    fv := false, res16 := false, err := 0x00#8, ecmd := none }

/-- The machine right after reset: the reset state of R28, nothing presented yet. -/
def State.reset : State := { block := Block.reset, inputs := [] }

end Sys2Proof.Machine
end

