-- ==== Sys2Proof/Machine/Ops.lean ====
section
/-! DEFINITION. The named operations over the block's registers, the freeze, and the ONE way a fault is taken
(10_state.md R10 to R17; 60_exceptions.md R82 to R89; 70_reset_and_hazards.md R104). -/

namespace Sys2Proof.Machine

/-- What a meaning and a step answer. -/
abbrev Result := Host.Outcome State Fault Refusal

/-! ## Faults -/

/-- The fault causes of R83, the complete list. -/
inductive FaultCause where
  | illegalCommand
  | identityLocked
deriving DecidableEq, Repr

/-- The code a cause records in `ERR` (R83). -/
def faultCode : FaultCause → ErrCode
  | .illegalCommand => 0x01#8
  | .identityLocked => 0x02#8

/-- Fault entry, `raise Fault(code)` in the step `Cmd w`: `ERR <- code`, `ECMD <- w`, nothing else (R88). -/
def raiseFault (cause : FaultCause) (w : CmdWord) (b : Block) : Block :=
  { b with err := faultCode cause, ecmd := some w }

/-- The block is frozen: `ERR` is not 0x00 (R89). -/
def Block.frozen (b : Block) : Bool := b.err != 0x00#8

/-- A command takes its effect on the block, all writes together, unless the block is frozen: then it is dropped and
nothing changes (R8, R87 (2), R89). Every meaning, and the illegal word, goes through this one operation. -/
def commit (effect : Block → Block) (s : State) : Result :=
  if s.block.frozen then .next s else .next { s with block := effect s.block }

/-- The `Reset` step: the reset state, whatever the state before; the only way out of the frozen state (R89, R104). There
is no return from a fault beside it (R81, R89). -/
def resetBlock (s : State) : State := { s with block := Block.reset }

/-! ## Register writes, one per command that writes (R10's column "written by") -/

/-- `TEMP <- c; TV <- 1; TSC <- RES16` (R55). -/
def Block.writeTemp (c : TempCode) (b : Block) : Block :=
  { b with temp := some c, tv := true, tsc := b.res16 }

/-- `MFG <- m; REV <- r; VK <- known; IDV <- 1` (R63). -/
def Block.writeIdentity (m : MfgCode) (r : RevCode) (known : Bool) (b : Block) : Block :=
  { b with mfg := some m, rev := some r, vk := known, idv := true }

/-- `FAHR <- f; FV <- 1` (R70). -/
def Block.writeFahr (f : FahrCode) (b : Block) : Block :=
  { b with fahr := some f, fv := true }

/-- `RES16 <- v` (R76). -/
def Block.writeRes16 (v : Bool) (b : Block) : Block :=
  { b with res16 := v }

end Sys2Proof.Machine
end

