-- ==== Sys2Proof/Machine/Control.lean ====
section
/-! DEFINITION. `NOP` and `CFG` (43_control.md R75, R76). -/

namespace Sys2Proof.Machine

/-- `NOP`: no write (R75). -/
def execNop (s : State) : Result := commit (fun b => b) s

/-- `CFG byte`: `RES16 <- byte[7]`; the other bits are neither read nor kept (R76). -/
def execCfg (byte : Byte) (s : State) : Result := commit (Block.writeRes16 (resolutionBit byte)) s

end Sys2Proof.Machine
end

