-- ==== Sys2Proof/Machine/Fahrenheit.lean ====
section
/-! DEFINITION. `CVTF` (42_fahrenheit.md R70). -/

namespace Sys2Proof.Machine

/-- `CVTF hi, lo`: `FAHR <- trunc_20(9 * sint_16({hi, lo}) + 20480); FV <- 1`; it reads no state (R70, R74). -/
def execCvtf (hi lo : Byte) (s : State) : Result := commit (Block.writeFahr (fahrCode (imm16 hi lo))) s

end Sys2Proof.Machine
end

