-- ==== Sys2Proof/Machine/Identity.lean ====
section
/-! DEFINITION. `DECI` (41_identity.md R63 to R66). -/

namespace Sys2Proof.Machine

/-- What `DECI id` does to a block that is not frozen: `IdentityLocked` when `IDV = 1`, recording the command's own word;
else the two fields, the vendor match and `IDV <- 1` (R63, R85; for the word see log entry 6, DEDUCED, safe). -/
def identify (id : Byte) (b : Block) : Block :=
  if b.idv then raiseFault .identityLocked (encode (.deci id)) b
  else b.writeIdentity (mfgField id) (revField id) (vendorKnown Config.knownVendorCodes (mfgField id))

/-- `DECI id` (R63). -/
def execDeci (id : Byte) (s : State) : Result := commit (identify id) s

end Sys2Proof.Machine
end

