-- ==== Sys2Proof/Machine/Temperature.lean ====
section
/-! DEFINITION. `DECT` (40_temperature.md R55). -/

namespace Sys2Proof.Machine

/-- `DECT msb, lsb`: `TEMP <- {msb, lsb}; TV <- 1; TSC <- RES16`, no fault of its own (R55). -/
def execDect (msb lsb : Byte) (s : State) : Result := commit (Block.writeTemp (imm16 msb lsb)) s

end Sys2Proof.Machine
end

