-- ==== Sys2Proof/Machine/Dispatch.lean ====
section
/-! DEFINITION. One arm per command of spec/opcode_table.json. -/

namespace Sys2Proof.Machine

/-- The meaning of each command (R44). -/
def exec (i : Instr) (s : State) : Host.Outcome State Fault Refusal :=
  match i with
  | .nop => Sys2Proof.Machine.execNop s
  | .dect msb lsb => Sys2Proof.Machine.execDect msb lsb s
  | .deci id => Sys2Proof.Machine.execDeci id s
  | .cvtf hi lo => Sys2Proof.Machine.execCvtf hi lo s
  | .cfg byte => Sys2Proof.Machine.execCfg byte s

end Sys2Proof.Machine
end

