-- ==== Sys2Proof/Machine/Present.lean ====
section
/-! DEFINITION. One presentation of the input ports: the `Reset` step, the command step, the idle step (00_scope.md R6;
10_state.md R19; 60_exceptions.md R87). -/

namespace Sys2Proof.Machine

/-- The step `Cmd w`: decode; an illegal word raises `IllegalCommand`, a legal one is executed. Both are dropped by a
frozen block (R87 (2) to (5), in `commit`; log entry 7, DEDUCED, safe). -/
def performWord (w : CmdWord) (s : State) : Result :=
  match decodeWord w with
  | .command i => exec i s
  | .illegal _ => commit (raiseFault .illegalCommand w) s

/-- One step of the block under given port values: `rst` wins over a command presented with it; no command, no change
(R6, R19, R87 (1)). -/
def performPins (p : Pins) (s : State) : Result :=
  if p.rst then .next (resetBlock s)
  else if p.cmdValid then performWord p.cmd s
  else .next s

/-- Several presentations, one after the other (R36, R116). -/
def presentAll : List Pins → State → Result
  | [], s => .next s
  | p :: ps, s =>
    match performPins p s with
    | .next t => presentAll ps t
    | .fault r => .fault r
    | .refused r => .refused r

end Sys2Proof.Machine
end

