-- ==== Sys2Proof/Machine/Step.lean ====
section
/-! DEFINITION. The step: the next presentation of the host is taken off the list and performed (00_scope.md R5, R6). -/

namespace Sys2Proof.Machine

/-- One step of the machine. With nothing left to present the state does not change (R6). -/
def step (s : State) : Host.Outcome State Fault Refusal :=
  match s.inputs with
  | [] => .next s
  | p :: rest => performPins p { s with inputs := rest }

/-- `s` with the instruction the opcode table numbers `w` presented next: the block has no fetch and no program memory, so
the host's next presentation is where an instruction comes from (R22; log entry 3, DESIGN CHOICE, safe). -/
def State.withFetchWord (s : State) (nbits w : Nat) : State :=
  { s with inputs := Pins.command (tableWord nbits w) :: s.inputs }

end Sys2Proof.Machine
end

