-- ==== Sys2Proof/Machine/Assembler.lean ====
section
/-! DEFINITION. The assembler notation and the pseudo-commands (30_encoding.md R50, R51). -/

namespace Sys2Proof.Machine

/-- A line of assembler: the five commands with literals still numbers, and the pseudo-commands. -/
inductive Asm where
  | nop
  | dect (msb lsb : Nat)
  | deci (id : Nat)
  | cvtf (hi lo : Nat)
  | cfg (byte : Nat)
  /-- `CFG16` -/
  | cfg16
  /-- `DECTW w16` -/
  | dectw (w16 : Nat)
  /-- `CVTFW w16` -/
  | cvtfw (w16 : Nat)
  /-- `CVTFC q` -/
  | cvtfc (q : Rat)
deriving DecidableEq, Repr

/-- "Each literal must fit in 8 bits" (R50). -/
def fitsByte (n : Nat) : Bool := n < 256

/-- A 16-bit literal of `DECTW` and `CVTFW` (R51). -/
def fitsCode (n : Nat) : Bool := n < 65536

/-- `128*q` is an integer in -32768..32767 (R51). -/
def celsiusEncodable (q : Rat) : Bool :=
  (q * 128).den == 1 && decide (-32768 ≤ (q * 128).num) && decide ((q * 128).num ≤ 32767)

/-- The line's literals are in range (R50, R51). -/
def asmWellFormed : Asm → Bool
  | .nop => true
  | .dect msb lsb => fitsByte msb && fitsByte lsb
  | .deci id => fitsByte id
  | .cvtf hi lo => fitsByte hi && fitsByte lo
  | .cfg byte => fitsByte byte
  | .cfg16 => true
  | .dectw w16 => fitsCode w16
  | .cvtfw w16 => fitsCode w16
  | .cvtfc q => celsiusEncodable q

/-- `w16[15:8]` (R51). -/
def highByte (c : TempCode) : Byte := c.extractLsb' 8 8

/-- `w16[7:0]` (R51). -/
def lowByte (c : TempCode) : Byte := c.extractLsb' 0 8

/-- `DECT w16[15:8], w16[7:0]` (R51). -/
def dectOfCode (c : TempCode) : Instr := .dect (highByte c) (lowByte c)

/-- `CVTF w16[15:8], w16[7:0]` (R51). -/
def cvtfOfCode (c : TempCode) : Instr := .cvtf (highByte c) (lowByte c)

/-- The one command a well-formed line stands for (R50, R51). -/
def expandAsm : Asm → Instr
  | .nop => .nop
  | .dect msb lsb => .dect (BitVec.ofNat 8 msb) (BitVec.ofNat 8 lsb)
  | .deci id => .deci (BitVec.ofNat 8 id)
  | .cvtf hi lo => .cvtf (BitVec.ofNat 8 hi) (BitVec.ofNat 8 lo)
  | .cfg byte => .cfg (BitVec.ofNat 8 byte)
  | .cfg16 => .cfg Config.cfgByte
  | .dectw w16 => dectOfCode (BitVec.ofNat 16 w16)
  | .cvtfw w16 => cvtfOfCode (BitVec.ofNat 16 w16)
  | .cvtfc q => cvtfOfCode (BitVec.ofInt 16 (q * 128).num)

/-- Assemble a line: its command, or nothing for a literal out of range (R50, R51). -/
def assemble (l : Asm) : Option Instr := if asmWellFormed l then some (expandAsm l) else none

/-! ## Text -/

/-- One hexadecimal digit (R7). -/
def hexDigit (n : Nat) : Char := "0123456789ABCDEF".toList.getD n '?'

/-- A byte literal, `0x..` (R7, R50). -/
def byteText (b : Byte) : String := "0x" ++ String.ofList [hexDigit (b.toNat / 16), hexDigit (b.toNat % 16)]

/-- A command as R50 writes it: the mnemonic and comma-separated byte literals (log entry 20, DESIGN CHOICE, safe). -/
def instrText (i : Instr) : String :=
  match i with
  | .nop => i.mnemonic
  | .dect msb lsb => i.mnemonic ++ " " ++ byteText msb ++ ", " ++ byteText lsb
  | .deci id => i.mnemonic ++ " " ++ byteText id
  | .cvtf hi lo => i.mnemonic ++ " " ++ byteText hi ++ ", " ++ byteText lo
  | .cfg byte => i.mnemonic ++ " " ++ byteText byte

end Sys2Proof.Machine
end

