-- ==== Sys2Proof/Machine/Flags.lean ====
section
/-! DEFINITION. The derived flags, the status view and the output ports (10_state.md R18, R20, R23; 60_exceptions.md R86).
All are views: nothing here is state. The block has no arithmetic flags (R23). -/

namespace Sys2Proof.Machine

/-- `UV`: the `UnknownVendor` condition, `IDV & ~VK` (R18, R86). -/
def Block.unknownVendor (b : Block) : Bool := b.idv && !b.vk

/-- `FLT`: `ERR` is not 0x00 (R18). -/
def Block.flt (b : Block) : Bool := b.err != 0x00#8

/-- `stat[7:0]` = `{FLT, UV, FV, TSC, TV, VK, IDV, RES16}` (R18, decision D23). -/
def Block.stat (b : Block) : BitVec 8 :=
  BitVec.ofBool b.flt ++ BitVec.ofBool b.unknownVendor ++ BitVec.ofBool b.fv ++ BitVec.ofBool b.tsc ++
    BitVec.ofBool b.tv ++ BitVec.ofBool b.vk ++ BitVec.ofBool b.idv ++ BitVec.ofBool b.res16

/-- The output ports of R20. A port that is meaningful only under a flag is an option: `none` while it is not
meaningful, since it then shows an unspecified value that nobody may use (R20, R110, U3; log entry 8, DEDUCED, safe). -/
structure OutPorts where
  temp : Option TempCode
  tempValid : Bool
  tempScaleOk : Option Bool
  mfg : Option MfgCode
  rev : Option RevCode
  idValid : Bool
  vendorKnown : Option Bool
  unknownVendor : Bool
  fahr : Option FahrCode
  fahrValid : Bool
  res16 : Bool
  err : ErrCode
  ecmd : Option CmdWord
  stat : BitVec 8
deriving DecidableEq, Repr

/-- A port shown only while its flag is set (R20). -/
def shownWhen {α : Type} (flag : Bool) (v : Option α) : Option α := if flag then v else none

/-- What the host sees after a step (R20). -/
def Block.ports (b : Block) : OutPorts :=
  { temp := shownWhen b.tv b.temp
    tempValid := b.tv
    tempScaleOk := shownWhen b.tv (some b.tsc)
    mfg := shownWhen b.idv b.mfg
    rev := shownWhen b.idv b.rev
    idValid := b.idv
    vendorKnown := shownWhen b.idv (some b.vk)
    unknownVendor := b.unknownVendor
    fahr := shownWhen b.fv b.fahr
    fahrValid := b.fv
    res16 := b.res16
    err := b.err
    ecmd := shownWhen b.flt b.ecmd
    stat := b.stat }

end Sys2Proof.Machine
end

