-- ==== Sys2Proof/Machine/Reading.lean ====
section
/-! DEFINITION. What register values mean: the signed, Celsius and Fahrenheit readings, and the document's own formulas
beside them (40_temperature.md R56 to R61; 41_identity.md R64, R67, R68; 42_fahrenheit.md R71, R73). Readings are
interpretations: the block stores none of them (R8, R59). Rationals are exact (decisions D7, D8; log entry 13, DEDUCED, safe). -/

namespace Sys2Proof.Machine

/-! ## Temperature -/

/-- `sint_16(TEMP) / 128` (R57): the number a code stands for under the premise that it was read in 16-bit mode. On its own
it is arithmetic of a code, no claim about a temperature. -/
def celsiusOfCode (c : TempCode) : Rat := (c.toInt : Rat) / (Config.celsiusDenominator : Rat)

/-- The signed value of the decoded temperature, `adc_code_signed` (R56), while `TV = 1`. -/
def Block.signedReading (b : Block) : Option Int := (b.ports.temp).map BitVec.toInt

/-- The Celsius reading. It takes R107's premise as an argument, "the sensor was in 16-bit mode when both bytes of the pair
were read", which the block cannot see; its checkable part is `TSC = 1`. Without the premise, or while `TV` or `TSC` is 0,
the code has no meaning in degrees and there is no value (R57, U1; log entry 18, DEDUCED, unsafe). -/
def Block.celsius (sensorIn16BitMode : Bool) (b : Block) : Option Rat :=
  if sensorIn16BitMode && b.tv && b.tsc then b.temp.map celsiusOfCode else none

/-- `sint_9(TEMP[15:7])`, whole degrees toward minus infinity (R52, R58). -/
def integerPart (c : TempCode) : Int := (c.extractLsb' 7 9).toInt

/-- `uint(TEMP[6:0])`, the count of 1/128 degree (R52, R58). -/
def fractionPart (c : TempCode) : Nat := (c.extractLsb' 0 7).toNat

/-- The document's `adc = (msb<<8)|lsb` on naturals (R55). -/
def documentAdc (msb lsb : Byte) : Nat := (msb.toNat <<< 8) ||| lsb.toNat

/-- The document's two branches with the division taken out: `adc - 65536` when bit 15 is set, else `adc` (R56, R60). -/
def documentSigned (msb lsb : Byte) : Int :=
  if (documentAdc msb lsb).testBit 15 then (documentAdc msb lsb : Int) - Config.twosModulus
  else (documentAdc msb lsb : Int)

/-- The document's `decode_temperature(msb, lsb)`, exactly, whose divisor presumes 16-bit mode (R55, R57, R59). -/
def documentTemperature (msb lsb : Byte) : Rat :=
  if (documentAdc msb lsb).testBit 15 then
    ((documentAdc msb lsb : Rat) - (Config.twosModulus : Rat)) / (Config.celsiusDenominator : Rat)
  else (documentAdc msb lsb : Rat) / (Config.celsiusDenominator : Rat)

/-! ## Identity -/

/-- The document's `(id_byte >> 3) & 0b11111` and `id_byte & 0b111` on naturals (R13, R64). -/
def documentIdentity (id : Byte) : Nat × Nat := ((id.toNat >>> 3) &&& 0b11111, id.toNat &&& 0b111)

/-- The byte the two fields partition, `{MFG, REV}` (R68). -/
def identityByte (m : MfgCode) (r : RevCode) : Byte := m ++ r

/-- The host's string for `DeviceIdentity.vendor_name` (R67). -/
def vendorName (known : Bool) : String := if known then Config.knownVendorName else Config.unknownVendorName

/-! ## Fahrenheit -/

/-- `sint_20(FAHR) / 640` (R71). -/
def fahrenheitOfCode (f : FahrCode) : Rat := (f.toInt : Rat) / (Config.fahrDenominator : Rat)

/-- The Fahrenheit reading, while `FV = 1` (R71): the exact conversion of the code `CVTF` was given, whatever that code's own
standing as a temperature (R74). -/
def Block.fahrenheit (b : Block) : Option Rat := (b.ports.fahr).map fahrenheitOfCode

/-- The document's `c * 9/5 + 32`, exactly (R70, R73). -/
def documentFahrenheit (c : Rat) : Rat := c * (Config.fahrMul : Rat) / (Config.fahrDiv : Rat) + (Config.fahrOffset : Rat)

end Sys2Proof.Machine
end

