-- ==== Sys2Proof/Machine/Session.lean ====
section
/-! DEFINITION. The host's session state machine and polling loop, beside the machine (60_exceptions.md R93 to R102;
70_reset_and_hazards.md R105, R108). None of this is state of the block (R27): a `Session` holds the machine it drives.
What the bus returns is an input of each event; the host's doings are kept in order in `trace`. -/

namespace Sys2Proof.Machine

/-- `SessionState` (R97). -/
inductive SessionState where
  | uninitialized
  | connected
  | polling
  | disconnected
deriving DecidableEq, Repr

/-- A transaction of BusTransport (R96): the operation and what it is given. -/
inductive BusOp where
  /-- `open(bus_id, address)`; the bus is chosen by "bus number" (R34, R96). -/
  | openHandle (bus address : Nat)
  /-- `read_byte(handle, register)` -/
  | readByte (register : Nat)
  /-- `write_byte(handle, register, value)` -/
  | writeByte (register : Nat) (value : Byte)
  /-- `close(handle)` -/
  | closeHandle
deriving DecidableEq, Repr

/-- What a host event reports to its caller. `ConnectError` and `ReadError` carry the transaction that failed: "all
bus-level failures are reported with enough context (register address, operation)" (R93). -/
inductive HostError where
  /-- `ConnectError`; a `WriteError` of the configuration write is one (R93, R96, 90_conflicts.md C4). -/
  | connectError (op : BusOp)
  /-- `ReadError` (R93). -/
  | readError (op : BusOp)
  /-- `PublishError` (R93). -/
  | publishError
  /-- A call that is no transition (R99; log entry 15, DESIGN CHOICE, unsafe). -/
  | rejected
  /-- `err` was not 0x00 when the host looked before using a result (R113; log entry 21, DESIGN CHOICE, unsafe). -/
  | blockFault
deriving DecidableEq, Repr

/-- A line the Recorder is given (R96, R101); times are the host's own numbers (N18). -/
inductive Record where
  /-- The identity line: vendor name and the two codes (R67, R101). -/
  | connect (time : Nat) (vendor : String) (mfg : Option MfgCode) (rev : Option RevCode)
  /-- A sample, as the ports show it: the code, its scale flag, the Fahrenheit numerator if converted (R99, R101). -/
  | sample (time : Nat) (temp : Option TempCode) (scaleOk : Option Bool) (fahr : Option FahrCode)
  | disconnect (time : Nat)
deriving DecidableEq, Repr

/-- One doing of the host (R95, R96). -/
inductive Action where
  | bus (op : BusOp)
  | present (p : Pins)
  | record (r : Record)
  /-- One outbound request carrying the sample value (R96); its transport is out of scope (R3). -/
  | publish (time : Nat) (temp : Option TempCode) (scaleOk : Option Bool)
  /-- A failure written to the log (R93, R96); not one of R101's records (log entry 17, DESIGN CHOICE, unsafe). -/
  | logFailure (e : HostError)
  | wait (seconds : Rat)
deriving DecidableEq, Repr

/-- A session: the number of its bus (R34, R96), its state, whether it holds the bus handle, whether
it has tried a `read_once` since it connected (only the first one's failure leaves the state open, N16), the machine it
drives, what it did so far (oldest first). -/
structure Session where
  bus : Nat
  phase : SessionState
  busOpen : Bool
  readBefore : Bool
  machine : State
  trace : List Action
deriving DecidableEq, Repr

/-- A new session, constructed for a bus, on a machine in any state (R96, R97, R105). -/
def Session.start (bus : Nat) (m : State) : Session :=
  { bus := bus, phase := .uninitialized, busOpen := false, readBefore := false, machine := m, trace := [] }

/-- The host does one thing that is not a presentation to the block. -/
def Session.act (a : Action) (h : Session) : Session := { h with trace := h.trace ++ [a] }

/-- What a host event answers: the session after it and the error reported, if any. -/
abbrev HostResult := Host.Outcome (Session × Option HostError) Fault Refusal

/-- The event ends here, with or without an error. -/
def finish (e : Option HostError) (h : Session) : HostResult := .next (h, e)

/-- The host presents port values, the block performs them, and the event goes on (R5, R36). -/
def presentThen (p : Pins) (h : Session) (go : Session → HostResult) : HostResult :=
  match performPins p h.machine with
  | .next m => go ({ h with machine := m }.act (.present p))
  | .fault r => .fault r
  | .refused r => .refused r

/-- The `open` of a session: its bus, the sensor's address (R34, R96, R98). -/
def Session.openOp (h : Session) : BusOp := .openHandle h.bus Config.i2cAddr

/-- The bus handle is obtained, or released. -/
def Session.openBus (h : Session) : Session := { h with busOpen := true }.act (.bus h.openOp)
def Session.closeBus (h : Session) : Session := { h with busOpen := false }.act (.bus .closeHandle)

/-- The ID register's read, the configuration write, the two temperature reads (R98, R99). -/
def readIdOp : BusOp := .readByte Config.regId
def writeConfigOp : BusOp := .writeByte Config.regConfig Config.cfgByte
def readMsbOp : BusOp := .readByte Config.regTempMsb
def readLsbOp : BusOp := .readByte Config.regTempLsb

/-- What the transport answers during connect: whether `open` succeeds, the ID byte if its read succeeds, whether the
configuration write succeeds; and the time of the connect record. -/
structure ConnectInputs where
  opened : Bool
  id : Option Byte
  written : Bool
  time : Nat
deriving DecidableEq, Repr

/-- What the transport answers during one `read_once`: the two bytes, each if its read succeeds; the time stamp; whether
the host also converts; whether a Publisher is active and then whether it takes the request (R93, R99); and whether a
session counts as `Polling` when this read is its first and fails (not said by the document, N16, U12: an input; log entry
14, DESIGN CHOICE, safe). -/
structure ReadInputs where
  msb : Option Byte
  lsb : Option Byte
  time : Nat
  convert : Bool
  publish : Option Bool
  failedFirstPolls : Bool
deriving DecidableEq, Repr

/-- The host looks at `err` before it uses a result (R113). What it does when `err` is not 0x00 the spec does not say: it
ends the event with `blockFault` and uses nothing (log entry 21, DESIGN CHOICE, unsafe). -/
def checkErr (h : Session) (onFault : Session) (go : Session → HostResult) : HostResult :=
  if h.machine.block.ports.err = 0x00#8 then go h else finish (some .blockFault) onFault

/-- The connect record and the state `Connected` (R98, R101; when and what is recorded: log entry 17, DESIGN CHOICE, unsafe). -/
def connected (time : Nat) (h : Session) : HostResult :=
  finish none
    ({ h with phase := .connected, readBefore := false }.act
      (.record (.connect time (vendorName h.machine.block.vk) h.machine.block.ports.mfg h.machine.block.ports.rev)))

/-- A failed construction: the handle is released, no session comes to be, the error says which transaction failed (R93,
R98, R100; log entry 17, DESIGN CHOICE, unsafe). -/
def connectFailed (op : BusOp) (h : Session) : HostResult := finish (some (.connectError op)) h.closeBus

/-- After the identity: write the control byte, then report it with `CFG` (R98, R107). -/
def configure (c : ConnectInputs) (h : Session) : HostResult :=
  let h' := h.act (.bus writeConfigOp)
  if c.written then
    presentThen (Pins.command (encode (.cfg Config.cfgByte))) h' fun k => checkErr k k.closeBus (connected c.time)
  else connectFailed writeConfigOp h'

/-- After opening: read the ID register, then present `DECI` (R98). -/
def readIdentity (c : ConnectInputs) (h : Session) : HostResult :=
  let h' := h.act (.bus readIdOp)
  match c.id with
  | some id => presentThen (Pins.command (encode (.deci id))) h' (configure c)
  | none => connectFailed readIdOp h'

/-- `Uninitialized → Connected`: Reset, open, ID read, `DECI`, configuration write, `CFG` (R98, R108). From any other state
it is no transition: rejected (R100; log entry 15, DESIGN CHOICE, unsafe). -/
def connect (c : ConnectInputs) (h : Session) : HostResult :=
  match h.phase with
  | .uninitialized =>
    presentThen Pins.reset h fun h' =>
      if c.opened then readIdentity c h'.openBus
      else finish (some (.connectError h'.openOp)) (h'.act (.bus h'.openOp))
  | .connected => finish (some .rejected) h
  | .polling => finish (some .rejected) h
  | .disconnected => finish (some .rejected) h

/-- The sample goes to the Publisher, if one is active; a request that fails is logged, not retried, and reported (R93,
R96, R99; log entry 22, DESIGN CHOICE, unsafe). -/
def publishSample (r : ReadInputs) (h : Session) : HostResult :=
  match r.publish with
  | none => finish none h
  | some taken =>
    let h' := h.act (.publish r.time h.machine.block.ports.temp h.machine.block.ports.tempScaleOk)
    if taken then finish none h' else finish (some .publishError) (h'.act (.logFailure .publishError))

/-- The sample is recorded, then published; the session is `Polling` (R99). The Fahrenheit field is the `fahr` port if the
host converted this sample (R112; log entry 17, DESIGN CHOICE, unsafe). -/
def recordSample (r : ReadInputs) (h : Session) : HostResult :=
  let p := h.machine.block.ports
  publishSample r
    ({ h with phase := .polling }.act
      (.record (.sample r.time p.temp p.tempScaleOk (if r.convert then p.fahr else none))))

/-- After both reads: `DECT msb, lsb`, optionally `CVTF msb, lsb` with the same bytes, a look at `err`, then the record (R99,
R112, R113). -/
def presentSample (r : ReadInputs) (msb lsb : Byte) (h : Session) : HostResult :=
  presentThen (Pins.command (encode (.dect msb lsb))) h fun h' =>
    if r.convert then
      presentThen (Pins.command (encode (.cvtf msb lsb))) h' fun k => checkErr k k (recordSample r)
    else checkErr h' h' (recordSample r)

/-- The state after a failed read: unchanged (R94, R99), but for the first read of a session, where the document does not say
and the input decides (N16, U12; log entry 14, DESIGN CHOICE, safe). -/
def phaseAfterReadError (r : ReadInputs) (readBefore : Bool) : SessionState → SessionState
  | .connected => if !readBefore && r.failedFirstPolls then .polling else .connected
  | .uninitialized => .uninitialized
  | .polling => .polling
  | .disconnected => .disconnected

/-- A failed read: nothing is presented to the block, the error with its transaction goes to the caller (R93, R94, R99). -/
def readFailed (op : BusOp) (r : ReadInputs) (h : Session) : HostResult :=
  finish (some (.readError op)) { h with phase := phaseAfterReadError r h.readBefore h.phase, readBefore := true }

/-- The two reads, most significant byte first, and what follows (R99, R109). After a failed first transaction the second is
not attempted, and the first is the one reported: the spec does not say, the model's choice (log entry 23, DESIGN CHOICE, unsafe). -/
def readPair (r : ReadInputs) (h : Session) : HostResult :=
  let h' := h.act (.bus readMsbOp)
  match r.msb with
  | none => readFailed readMsbOp r h'
  | some msb =>
    let h'' := h'.act (.bus readLsbOp)
    match r.lsb with
    | none => readFailed readLsbOp r h''
    | some lsb => presentSample r msb lsb { h'' with readBefore := true }

/-- `read_once()` (R99); rejected outside `Connected` and `Polling`, with no bus access and no command (log entry 15, DESIGN CHOICE, unsafe). -/
def readOnce (r : ReadInputs) (h : Session) : HostResult :=
  match h.phase with
  | .connected => readPair r h
  | .polling => readPair r h
  | .uninitialized => finish (some .rejected) h
  | .disconnected => finish (some .rejected) h

/-- `disconnect()`: closes the handle and writes the one disconnect record, from `Connected` and from `Polling`; a second
one is a no-op (R100, 90_conflicts.md C2). It sends nothing to the block. That the handle is closed first and the record
written after it is the model's choice: the spec gives no order between the two (log entry 17, DESIGN CHOICE, unsafe).
Before connect it does nothing (log entry 15, DESIGN CHOICE, unsafe). -/
def disconnect (time : Nat) (h : Session) : HostResult :=
  match h.phase with
  | .connected => finish none ({ h.closeBus with phase := .disconnected }.act (.record (.disconnect time)))
  | .polling => finish none ({ h.closeBus with phase := .disconnected }.act (.record (.disconnect time)))
  | .uninitialized => finish none h
  | .disconnected => finish none h

/-- The loop ends: it disconnects and reports why it ended (R93, R100). -/
def endLoop (why : Option HostError) (time : Nat) (h : Session) : HostResult :=
  match disconnect time h with
  | .next (h', _) => finish why h'
  | .fault r => .fault r
  | .refused r => .refused r

/-- Whether the loop goes on after what a `read_once` reported: after a good read, and after a `PublishError` unless
publishing is the sole purpose of this loop variant (R93). That a rejected `read_once`, of a loop started on a session that
cannot poll, ends it is the model's choice (log entry 15, DESIGN CHOICE, unsafe). -/
def keepsPolling (publishOnly : Bool) : Option HostError → Bool
  | none => true
  | some .publishError => !publishOnly
  | some (.connectError _) => false
  | some (.readError _) => false
  | some .rejected => false
  | some .blockFault => false

/-- What the loop logs before it ends: a `ReadError` (R93), and a block fault (log entry 21, DESIGN CHOICE, unsafe). A `PublishError` is logged
where it arises. That a rejection is not logged is the model's choice (log entry 15, DESIGN CHOICE, unsafe). -/
def logEnd (why : Option HostError) (h : Session) : Session :=
  match why with
  | some (.readError op) => h.act (.logFailure (.readError op))
  | some .blockFault => h.act (.logFailure .blockFault)
  | some .publishError => h
  | some (.connectError _) => h
  | some .rejected => h
  | none => h

/-- The wait before the next read, if there is one (R102; log entry 16, DESIGN CHOICE, unsafe). -/
def waitBefore (rest : List ReadInputs) (h : Session) : Session :=
  if rest.isEmpty then h else h.act (.wait Config.pollInterval)

/-- The PollingLoop: `read_once` again and again with the wait between two calls, until the cancellation is seen (the list
ends), a read fails, or a publishing failure ends a loop that only publishes; then `disconnect()` (R93, R99, R102,
90_conflicts.md C3; log entry 16, DESIGN CHOICE, unsafe). -/
def pollLoop (publishOnly : Bool) : List ReadInputs → Nat → Session → HostResult
  | [], time, h => endLoop none time h
  | r :: rest, time, h =>
    match readOnce r h with
    | .next (h', e) =>
      if keepsPolling publishOnly e then pollLoop publishOnly rest time (waitBefore rest h')
      else endLoop e time (logEnd e h')
    | .fault f => .fault f
    | .refused f => .refused f

/-- A call on the session. -/
inductive HostEvent where
  | connect (c : ConnectInputs)
  | readOnce (r : ReadInputs)
  | disconnect (time : Nat)
deriving DecidableEq, Repr

/-- One call. -/
def hostEvent : HostEvent → Session → HostResult
  | .connect c, h => connect c h
  | .readOnce r, h => readOnce r h
  | .disconnect time, h => disconnect time h

/-- Several calls, errors noted by the caller and no more: the most liberal caller (R97, R99). -/
def hostEvents : List HostEvent → Session → HostResult
  | [], h => finish none h
  | e :: es, h =>
    match hostEvent e h with
    | .next (h', _) => hostEvents es h'
    | .fault r => .fault r
    | .refused r => .refused r

/-- The records of a doing, if it is one. -/
def Action.record? : Action → Option Record
  | .record r => some r
  | .bus _ => none
  | .present _ => none
  | .publish _ _ _ => none
  | .logFailure _ => none
  | .wait _ => none

/-- Whether a record is a sample's. -/
def Record.isSample : Record → Bool
  | .sample _ _ _ _ => true
  | .connect _ _ _ _ => false
  | .disconnect _ => false

/-- What the Recorder was given, in order (R101). -/
def Session.records (h : Session) : List Record := h.trace.filterMap Action.record?

/-- What the host presented to the block, in order. -/
def Action.pins? : Action → Option Pins
  | .present p => some p
  | .bus _ => none
  | .record _ => none
  | .publish _ _ _ => none
  | .logFailure _ => none
  | .wait _ => none

/-- The presentations of a session, in order (R95). -/
def Session.presented (h : Session) : List Pins := h.trace.filterMap Action.pins?

end Sys2Proof.Machine
end

