-- ==== Sys2Proof/Safety.lean ====
section
/-! DEFINITION. What is claimed of the machine: the invariant of the block's state, runs and how they end, the premise of a
Celsius claim, the session table (10_state.md R11 to R17; 60_exceptions.md R97, R101; 70_reset_and_hazards.md R107, R116). -/

namespace Sys2Proof.Machine

/-- The laws the rules of 10_state.md put on the block's state. -/
structure Block.Inv (b : Block) : Prop where
  /-- `TV = 1` exactly when `TEMP` holds a value (R12). -/
  temp_valid : b.tv = b.temp.isSome
  /-- `IDV = 1` exactly when `MFG` holds a value (R13, R14). -/
  mfg_valid : b.idv = b.mfg.isSome
  /-- `IDV = 1` exactly when `REV` holds a value (R13, R14). -/
  rev_valid : b.idv = b.rev.isSome
  /-- `FV = 1` exactly when `FAHR` holds a value (R15). -/
  fahr_valid : b.fv = b.fahr.isSome
  /-- `ECMD` holds a value exactly when `ERR` is not 0x00 (R17). -/
  ecmd_valid : b.frozen = b.ecmd.isSome
  /-- `TSC` is 0 until the first `DECT` (R23, R28). -/
  tsc_needs_sample : b.tsc = true → b.tv = true
  /-- `VK` is 0 until the first `DECI` (R23, R28). -/
  vk_needs_identity : b.vk = true → b.idv = true
  /-- `VK = 1` exactly when `MFG` is a known vendor code (R14, R65). -/
  vk_matches : ∀ m, b.mfg = some m → (b.vk = true ↔ m ∈ Config.knownVendorCodes)
  /-- `FAHR` holds `9*n + 20480` for some 16-bit signed `n`, with no bit lost (R15, R72). -/
  fahr_reachable : ∀ f, b.fahr = some f → ∃ c : TempCode, f.toInt = 9 * c.toInt + 20480
  /-- The legal values of `ERR` (R17, R83). -/
  err_legal : b.err = 0x00#8 ∨ b.err = 0x01#8 ∨ b.err = 0x02#8
  /-- After `IllegalCommand`, `ECMD` is an illegal word (R83). -/
  illegal_recorded : ∀ w, b.err = 0x01#8 → b.ecmd = some w → (fieldsOf w).wellFormed = false
  /-- After `IdentityLocked`, `ECMD` is the word of a `DECI` and the identity stands (R83, R85). -/
  locked_recorded : ∀ w, b.err = 0x02#8 → b.ecmd = some w → b.idv = true ∧ ∃ id, w = encode (.deci id)

/-- `k` steps of the machine behind the host's interface. -/
def runSteps (k : Nat) (s : State) : Result := Sys2Proof.core.run k s

/-- The presentations of a run begin with a `Reset` (R116, U4). -/
def beginsWithReset : List Pins → Bool
  | p :: _ => p.rst
  | [] => false

/-- A run: presentations that begin with `Reset`; it ended well when `ERR = 0x00` in its last state (R116). -/
def EndedWell (ps : List Pins) (s : State) : Prop :=
  beginsWithReset ps = true ∧ ∃ t, presentAll ps s = .next t ∧ t.block.err = 0x00#8

/-- No presentation of the list asserts `rst`. -/
def NoReset (ps : List Pins) : Prop := ∀ p ∈ ps, p.rst = false

/-- No presentation of the list is a `CFG` command whose byte has bit 7 set. -/
def NoModeReport (ps : List Pins) : Prop :=
  ∀ p ∈ ps, p.cmdValid = true → ∀ byte, decodeWord p.cmd = .command (.cfg byte) → byte.getLsbD 7 = false

/-- The premise and the claim of a Celsius value: the sensor was in 16-bit mode when both bytes of the pair were read (a
premise the block cannot see), `TV = 1` and `TSC = 1` (the part it can), and the value is `sint_16(TEMP)/128` (R57, R107; log entry 18, DEDUCED, unsafe). -/
def MeansCelsius (sensorIn16BitMode : Prop) (b : Block) (q : Rat) : Prop :=
  sensorIn16BitMode ∧ b.tv = true ∧ b.tsc = true ∧ ∃ c, b.temp = some c ∧ q = (c.toInt : Rat) / 128

/-- The block a host has produced on the way through the connect sequence: reset, or reset and then one identity (R98). -/
def OnTheWayToConnected (b : Block) : Prop := b = Block.reset ∨ ∃ id, b = identify id Block.reset

/-- The flags of the samples of a session: none before the first sample, `TV` and `TSC` after it (R97). -/
def SampleFlags (h : Session) : Prop :=
  if h.records.any Record.isSample then h.machine.block.tv = true ∧ h.machine.block.tsc = true
  else h.machine.block.tv = false

/-- The doings of a session that ended: after the handle was closed nothing is presented any more, "no further command until
`Reset`" (R97). That the record follows the closing is the model's choice (log entry 17, DESIGN CHOICE, unsafe). -/
def NothingPresentedAfterClosing (h : Session) : Prop :=
  ∃ before time, h.trace = before ++ [.bus .closeHandle, .record (.disconnect time)]

/-- R97's table: the block state a well-behaved host has produced in each session state. `Uninitialized`: nothing was
presented yet and the machine is as the session found it (log entry 4, DEDUCED, safe), or the block is the reset state or on the way through the connect
sequence. `Disconnected`: the block is as it was at the disconnect, that is as `Connected` or `Polling` has it, and nothing
was presented since. -/
def Session.Matches (h : Session) : Prop :=
  let b := h.machine.block
  match h.phase with
  | .uninitialized => h.presented = [] ∨ OnTheWayToConnected b
  | .connected => b.idv = true ∧ b.res16 = true ∧ b.tv = false ∧ b.err = 0x00#8
  | .polling => b.idv = true ∧ b.res16 = true ∧ SampleFlags h ∧ b.err = 0x00#8
  | .disconnected =>
    b.idv = true ∧ b.res16 = true ∧ SampleFlags h ∧ b.err = 0x00#8 ∧ NothingPresentedAfterClosing h

/-- "one connect record, one per-sample record, one disconnect record, in that relative order" (R101), for the records of a
session in a given state. -/
def RecordsInOrder (h : Session) : Prop :=
  match h.phase with
  | .uninitialized => h.records = []
  | .connected => ∃ c, (∃ t v m r, c = Record.connect t v m r) ∧ h.records = [c]
  | .polling =>
    ∃ c samples, (∃ t v m r, c = Record.connect t v m r) ∧
      (∀ x ∈ samples, ∃ t d o f, x = Record.sample t d o f) ∧ h.records = c :: samples
  | .disconnected =>
    ∃ c samples d, (∃ t v m r, c = Record.connect t v m r) ∧
      (∀ x ∈ samples, ∃ t d o f, x = Record.sample t d o f) ∧ (∃ t, d = Record.disconnect t) ∧
      h.records = c :: samples ++ [d]

end Sys2Proof.Machine
end

