-- ==== Sys2Proof/Certificates/Slice0/Obligations.lean ====
section
/-! DEFINITION. The statements for the provers. Each docstring names the rules of spec/ it formalises. "Live" means
`ERR = 0x00`; a frozen block has statements of its own. Memory, the program counter and general registers do not exist
(10_state.md R21, R22, R25), so a frame is about the block's twelve elements and the list of presentations. -/

open Sys2Proof Sys2Proof.Machine

/-! ## Encoding -/

/-- Every command, with every operand byte: decoding its word gives it back, and so does decoding its three bytes, whatever
bytes follow (R44, R45, R49, R50). -/
def Obligations.DecodeOfEncodeGivesTheCommand : Prop :=
  ∀ i : Instr, decodeWord (encode i) = .command i ∧
    ∀ rest : List Byte, decodeBytes (encodeBytes i ++ rest) = .command i rest

/-- A word that decodes to a command is that command's word: no bit of a legal word is ignored (R42, R45). -/
def Obligations.EncodeOfADecodedWordIsTheWord : Prop :=
  ∀ (w : CmdWord) (i : Instr), decodeWord w = .command i → encode i = w

/-- R46: the illegal words are exactly those it names, and on a live block each of them, presented, raises `IllegalCommand`
and does nothing else. -/
def Obligations.IllegalWordsAreExactlyThoseNamedAndFault : Prop :=
  ∀ w : CmdWord,
    ((∃ why, decodeWord w = .illegal why) ↔
      (0x05 ≤ (w.extractLsb' 16 8).toNat ∨
        (w.extractLsb' 16 8 = 0x00#8 ∧ (w.extractLsb' 8 8 ≠ 0x00#8 ∨ w.extractLsb' 0 8 ≠ 0x00#8)) ∨
        ((w.extractLsb' 16 8 = 0x02#8 ∨ w.extractLsb' 16 8 = 0x04#8) ∧ w.extractLsb' 0 8 ≠ 0x00#8))) ∧
    ((∃ why, decodeWord w = .illegal why) → ∀ (b : Block) (rest : List Pins), b.err = 0x00#8 →
      step { block := b, inputs := Pins.command w :: rest } =
        .next { block := { b with err := 0x01#8, ecmd := some w }, inputs := rest })

/-- R45: of the 2^24 words 131585 are legal and 16645631 are illegal. -/
def Obligations.LegalAndIllegalWordCounts : Prop :=
  Nat.card { w : CmdWord // ∃ i, decodeWord w = .command i } = 131585 ∧
    Nat.card { w : CmdWord // ∃ why, decodeWord w = .illegal why } = 16645631

/-- R44: a word selects a row of the opcode map exactly when it decodes to that row's command, and no word selects two
rows. -/
def Obligations.OpcodeMapRowsSelectExactlyTheirCommand : Prop :=
  (∀ (w : CmdWord), ∀ r ∈ opcodeTable,
    (w &&& r.mask = r.pattern ↔ ∃ i, decodeWord w = .command i ∧ i.mnemonic = r.mnemonic)) ∧
  (∀ (w : CmdWord), ∀ r ∈ opcodeTable, ∀ q ∈ opcodeTable,
    w &&& r.mask = r.pattern → w &&& q.mask = q.pattern → r = q)

/-- The example words of R50 and three refused words of 95_test_vectors.md section 4. -/
def Obligations.WordsOfTheSpecDecodeAsWritten : Prop :=
  decodeWord 0x000000#24 = .command .nop ∧
  decodeWord 0x010960#24 = .command (.dect 0x09#8 0x60#8) ∧
  decodeWord 0x02CB00#24 = .command (.deci 0xCB#8) ∧
  decodeWord 0x033200#24 = .command (.cvtf 0x32#8 0x00#8) ∧
  decodeWord 0x048000#24 = .command (.cfg 0x80#8) ∧
  decodeWord 0x050000#24 = .illegal .reservedOpcode ∧
  decodeWord 0x000001#24 = .illegal .operandByteNotZero ∧
  decodeWord 0x02CB01#24 = .illegal .operandByteNotZero

/-- R51: each pseudo-command expands to the one command given there, for every literal in its range; a Celsius literal
expands to the code of 128 times its value; a literal out of range is refused. -/
def Obligations.PseudoCommandsExpandToOneCommand : Prop :=
  assemble .cfg16 = some (.cfg 0x80#8) ∧ encode (.cfg 0x80#8) = 0x048000#24 ∧
  (∀ n : Nat, n < 65536 → ∃ hi lo : Byte, 256 * hi.toNat + lo.toNat = n ∧
    assemble (.dectw n) = some (.dect hi lo) ∧ assemble (.cvtfw n) = some (.cvtf hi lo)) ∧
  (∀ (q : Rat) (n : Int), 128 * q = (n : Rat) → -32768 ≤ n → n ≤ 32767 →
    ∃ hi lo : Byte, assemble (.cvtfc q) = some (.cvtf hi lo) ∧ (hi ++ lo : TempCode).toInt = n) ∧
  (∀ n : Nat, 65536 ≤ n → assemble (.dectw n) = none ∧ assemble (.cvtfw n) = none) ∧
  (∀ q : Rat, (¬ ∃ n : Int, 128 * q = (n : Rat) ∧ -32768 ≤ n ∧ n ≤ 32767) → assemble (.cvtfc q) = none) ∧
  assemble (.cvtfc 100) = some (.cvtf 0x32#8 0x00#8) ∧
  assemble (.cvtfc (-40)) = some (.cvtf 0xEC#8 0x00#8)

/-! ## The step -/

/-- The list of presentations is the model's own field (log entries 2 and 3, DESIGN CHOICE, safe). When the host presents a word that decodes to a
command, without `rst`, the step takes the presentation off the list
and runs that command; so does the step after `withFetchWord`, on any 24-bit numbering (R6, R19, R22). -/
def Obligations.StepRunsThePresentedCommand : Prop :=
  (∀ (s : State) (p : Pins) (rest : List Pins) (i : Instr), s.inputs = p :: rest → p.rst = false → p.cmdValid = true →
    decodeWord p.cmd = .command i → step s = exec i { s with inputs := rest }) ∧
  (∀ (s : State) (w : Nat) (i : Instr), decodeTableWord 24 w = some i → step (s.withFetchWord 24 w) = exec i s)

/-- R87: the order of checks in one step: reset, then frozen, then illegal, then identity locked, then execution without a
fault; the two faults exclude each other. -/
def Obligations.StepChecksInOrder : Prop :=
  ∀ (b : Block) (p : Pins) (rest : List Pins),
    (p.rst = true →
      step { block := b, inputs := p :: rest } = .next { block := Block.reset, inputs := rest }) ∧
    (p.rst = false → p.cmdValid = true → b.err ≠ 0x00#8 →
      step { block := b, inputs := p :: rest } = .next { block := b, inputs := rest }) ∧
    (∀ why, p.rst = false → p.cmdValid = true → b.err = 0x00#8 → decodeWord p.cmd = .illegal why →
      step { block := b, inputs := p :: rest } =
        .next { block := { b with err := 0x01#8, ecmd := some p.cmd }, inputs := rest }) ∧
    (∀ id, p.rst = false → p.cmdValid = true → b.err = 0x00#8 → decodeWord p.cmd = .command (.deci id) → b.idv = true →
      step { block := b, inputs := p :: rest } =
        .next { block := { b with err := 0x02#8, ecmd := some p.cmd }, inputs := rest }) ∧
    (∀ i, p.rst = false → p.cmdValid = true → b.err = 0x00#8 → decodeWord p.cmd = .command i →
      (∀ id, i = .deci id → b.idv = false) →
      ∃ t, exec i { block := b, inputs := rest } = .next t ∧ step { block := b, inputs := p :: rest } = .next t ∧
        t.block.err = 0x00#8)

/-- R6: the step is total: every state has a next state, the presentation performed is gone from the list, and with
nothing presented the block does not change. -/
def Obligations.EveryStepHasANextState : Prop :=
  ∀ s : State, ∃ t, step s = .next t ∧ t.inputs = s.inputs.tail ∧
    ((∀ p, s.inputs.head? = some p → p.rst = false ∧ p.cmdValid = false) → t.block = s.block)

/-- R104, R28: a `Reset` step gives the reset state, whatever the state before and whatever is presented with it; and no
other step clears a valid flag, unlocks the identity or leaves the frozen state. -/
def Obligations.ResetGivesTheResetStateAndOnlyResetClears : Prop :=
  (∀ (s : State) (p : Pins) (rest : List Pins), s.inputs = p :: rest → p.rst = true →
    ∃ t, step s = .next t ∧ t.inputs = rest ∧
      t.block.tv = false ∧ t.block.tsc = false ∧ t.block.idv = false ∧ t.block.vk = false ∧ t.block.fv = false ∧
      t.block.res16 = false ∧ t.block.err = 0x00#8 ∧ t.block.temp = none ∧ t.block.mfg = none ∧ t.block.rev = none ∧
      t.block.fahr = none ∧ t.block.ecmd = none ∧ t.block.stat = 0x00#8 ∧ t.block.unknownVendor = false) ∧
  (∀ s t : State, (∀ p, s.inputs.head? = some p → p.rst = false) → step s = .next t →
    (s.block.tv = true → t.block.tv = true) ∧ (s.block.idv = true → t.block.idv = true) ∧
    (s.block.fv = true → t.block.fv = true) ∧ (s.block.err ≠ 0x00#8 → t.block.err ≠ 0x00#8))

/-- Running `k` steps over the presentations `ps` is presenting them one after the other, each complete before the next
(R36, R116). -/
def Obligations.RunIsPresentationInOrder : Prop :=
  ∀ (ps rest : List Pins) (b : Block),
    runSteps ps.length { block := b, inputs := ps ++ rest } = presentAll ps { block := b, inputs := rest }

/-! ## The commands -/

/-- R75: `NOP` has the one word 0x000000 and leaves every state, live or frozen, as it was. -/
def Obligations.NopCompletesAndChangesNothing : Prop :=
  encode .nop = 0x000000#24 ∧ ∀ s : State, exec .nop s = .next s

/-- R47: `NOP` is the only command that changes nothing: each other one changes some live state. -/
def Obligations.OnlyNopChangesNothing : Prop :=
  ∀ i : Instr, (∀ s : State, s.block.err = 0x00#8 → exec i s = .next s) ↔ i = .nop

/-- R55: `DECT msb, lsb` on a live block stores the pair unchanged, most significant byte first, sets `TV`, copies `RES16`
into `TSC`, and changes nothing else. -/
def Obligations.DectCompletesAndStoresThePair : Prop :=
  ∀ (s : State) (msb lsb : Byte), s.block.err = 0x00#8 →
    exec (.dect msb lsb) s =
      .next { s with block := { s.block with temp := some (msb ++ lsb), tv := true, tsc := s.block.res16 } }

/-- R63, R64, R65: the first `DECI id` on a live block stores id[7:3] and id[2:0], sets `VK` when id[7:3] is 0b11001 and
clears it otherwise, sets `IDV`, and changes nothing else. -/
def Obligations.DeciCompletesAndSplitsTheByte : Prop :=
  ∀ (s : State) (id : Byte), s.block.err = 0x00#8 → s.block.idv = false →
    exec (.deci id) s =
      .next { s with block := { s.block with
        mfg := some (id.extractLsb' 3 5), rev := some (id.extractLsb' 0 3),
        vk := decide (id.extractLsb' 3 5 = 0b11001#5), idv := true } }

/-- R70: `CVTF hi, lo` on a live block stores trunc_20(9 * sint_16({hi, lo}) + 20480), sets `FV`, and changes nothing
else. -/
def Obligations.CvtfCompletesAndConverts : Prop :=
  ∀ (s : State) (hi lo : Byte), s.block.err = 0x00#8 →
    exec (.cvtf hi lo) s =
      .next { s with block := { s.block with
        fahr := some (BitVec.ofInt 20 (9 * (hi ++ lo : TempCode).toInt + 20480)), fv := true } }

/-- R76: `CFG byte` on a live block copies bit 7 into `RES16`, that is: 0x80 to 0xFF set it, 0x00 to 0x7F clear it; nothing
else changes, `TSC` among the rest. -/
def Obligations.CfgCompletesAndRecordsBitSeven : Prop :=
  ∀ (s : State) (byte : Byte), s.block.err = 0x00#8 →
    exec (.cfg byte) s = .next { s with block := { s.block with res16 := decide (0x80 ≤ byte.toNat) } }

/-- The frame of the commands: when a command answers a next state, only the elements the column "written by" of R10 and
the pages R55, R62, R63, R69, R70, R74, R75, R76 name may differ; a `DECI` may instead have faulted, and then only `ERR` and
`ECMD` differ (R88). The list of presentations never changes. -/
def Obligations.CommandsChangeOnlyTheirOwnElements : Prop :=
  ∀ (i : Instr) (s t : State), exec i s = .next t →
    t.inputs = s.inputs ∧
    ((∀ id, i ≠ .deci id) → t.block.err = s.block.err ∧ t.block.ecmd = s.block.ecmd ∧ t.block.mfg = s.block.mfg ∧
      t.block.rev = s.block.rev ∧ t.block.vk = s.block.vk ∧ t.block.idv = s.block.idv) ∧
    ((∀ m l, i ≠ .dect m l) → t.block.temp = s.block.temp ∧ t.block.tv = s.block.tv ∧ t.block.tsc = s.block.tsc) ∧
    ((∀ h l, i ≠ .cvtf h l) → t.block.fahr = s.block.fahr ∧ t.block.fv = s.block.fv) ∧
    ((∀ c, i ≠ .cfg c) → t.block.res16 = s.block.res16) ∧
    (∀ id, i = .deci id →
      (t.block.err = s.block.err ∧ t.block.ecmd = s.block.ecmd) ∨
      (s.block.idv = true ∧ t.block.mfg = s.block.mfg ∧ t.block.rev = s.block.rev ∧ t.block.vk = s.block.vk ∧
        t.block.idv = s.block.idv))

/-- R23: in a step without `rst`, a flag changes only by the command R23 names for it, on a live block, to the value R23
gives. -/
def Obligations.FlagsChangeOnlyByTheirCommand : Prop :=
  ∀ (s t : State) (p : Pins) (rest : List Pins), s.inputs = p :: rest → p.rst = false → step s = .next t →
    (t.block.tv ≠ s.block.tv → t.block.tv = true ∧ s.block.err = 0x00#8 ∧ ∃ m l, p.cmd = encode (.dect m l)) ∧
    (t.block.tsc ≠ s.block.tsc →
      t.block.tsc = s.block.res16 ∧ s.block.err = 0x00#8 ∧ ∃ m l, p.cmd = encode (.dect m l)) ∧
    (t.block.idv ≠ s.block.idv → t.block.idv = true ∧ s.block.err = 0x00#8 ∧ ∃ id, p.cmd = encode (.deci id)) ∧
    (t.block.vk ≠ s.block.vk →
      s.block.idv = false ∧ s.block.err = 0x00#8 ∧
        ∃ id, p.cmd = encode (.deci id) ∧ (t.block.vk = true ↔ id.extractLsb' 3 5 = 0b11001#5)) ∧
    (t.block.fv ≠ s.block.fv → t.block.fv = true ∧ s.block.err = 0x00#8 ∧ ∃ h l, p.cmd = encode (.cvtf h l)) ∧
    (t.block.res16 ≠ s.block.res16 →
      s.block.err = 0x00#8 ∧ ∃ c, p.cmd = encode (.cfg c) ∧ t.block.res16 = c.getLsbD 7)

/-- The columns "State read" of R55, R63, R70 and R76, and R21 (no command takes a result register as a source): on two
live states a command's results agree whenever the one element it reads agrees, whatever else differs. -/
def Obligations.ResultsDependOnlyOnTheStateRead : Prop :=
  ∀ (s t : State), s.block.err = 0x00#8 → t.block.err = 0x00#8 →
    (∀ hi lo, ∃ u v, exec (.cvtf hi lo) s = .next u ∧ exec (.cvtf hi lo) t = .next v ∧
      u.block.fahr = v.block.fahr ∧ u.block.fv = v.block.fv) ∧
    (∀ c, ∃ u v, exec (.cfg c) s = .next u ∧ exec (.cfg c) t = .next v ∧ u.block.res16 = v.block.res16) ∧
    (∀ msb lsb, s.block.res16 = t.block.res16 → ∃ u v, exec (.dect msb lsb) s = .next u ∧
      exec (.dect msb lsb) t = .next v ∧ u.block.temp = v.block.temp ∧ u.block.tv = v.block.tv ∧
      u.block.tsc = v.block.tsc) ∧
    (∀ id, s.block.idv = t.block.idv → ∃ u v, exec (.deci id) s = .next u ∧ exec (.deci id) t = .next v ∧
      u.block.err = v.block.err ∧ u.block.idv = v.block.idv ∧
      (s.block.idv = false → u.block.mfg = v.block.mfg ∧ u.block.rev = v.block.rev ∧ u.block.vk = v.block.vk) ∧
      (s.block.idv = true → u.block.ecmd = v.block.ecmd))

/-! ## Faults -/

/-- R85: a `DECI` presented to a live block when `IDV = 1` raises `IdentityLocked`, records its own word, and leaves the
identity and everything else as it was, whether or not its byte is the one decoded before. -/
def Obligations.SecondDeciRaisesIdentityLocked : Prop :=
  ∀ (b : Block) (id : Byte) (rest : List Pins), b.err = 0x00#8 → b.idv = true →
    step { block := b, inputs := Pins.command (0x02#8 ++ id ++ 0x00#8) :: rest } =
      .next { block := { b with err := 0x02#8, ecmd := some (0x02#8 ++ id ++ 0x00#8) }, inputs := rest }

/-- R88: a step that takes a live block into a fault writes `ERR` and, in `ECMD`, the word presented, and nothing else; the
ports `err`, `ecmd` and `stat[7]` show it; the cause is one of R83's two, with its code. -/
def Obligations.FaultingStepRecordsAndWritesNothingElse : Prop :=
  ∀ s t : State, s.block.err = 0x00#8 → step s = .next t → t.block.err ≠ 0x00#8 →
    ∃ p rest, s.inputs = p :: rest ∧ p.rst = false ∧ p.cmdValid = true ∧
      t = { block := { s.block with err := t.block.err, ecmd := some p.cmd }, inputs := rest } ∧
      t.block.ports.err = t.block.err ∧ t.block.ports.ecmd = some p.cmd ∧ t.block.ports.stat.getLsbD 7 = true ∧
      ((t.block.err = 0x01#8 ∧ ∃ why, decodeWord p.cmd = .illegal why) ∨
        (t.block.err = 0x02#8 ∧ s.block.idv = true ∧ ∃ id, decodeWord p.cmd = .command (.deci id)))

/-- R89: while `ERR` is not 0x00, any number of steps without `rst`, whatever is presented, leaves all of the block
unchanged; a `Reset` leaves this state. -/
def Obligations.FrozenBlockKeepsEverythingUntilReset : Prop :=
  (∀ (k : Nat) (s : State), s.block.err ≠ 0x00#8 → NoReset s.inputs →
    ∃ t, runSteps k s = .next t ∧ t.block = s.block ∧ t.inputs = s.inputs.drop k) ∧
  (∀ (s : State) (p : Pins) (rest : List Pins), s.block.err ≠ 0x00#8 → s.inputs = p :: rest → p.rst = true →
    ∃ t, step s = .next t ∧ t.block.err = 0x00#8)

/-- R89, at the level of the meanings: a frozen block drops every command. -/
def Obligations.FrozenBlockDropsEveryCommand : Prop :=
  ∀ (i : Instr) (s : State), s.block.err ≠ 0x00#8 → exec i s = .next s

/-- R86: the condition holds exactly when `IDV = 1` and `VK = 0`, is shown on `unknown_vendor` and `stat[6]`, is raised by
a `DECI` of an unknown code without a fault, and stays until `Reset`. -/
def Obligations.UnknownVendorIsRaisedWithoutFaultAndStays : Prop :=
  (∀ b : Block, (b.ports.unknownVendor = true ↔ b.idv = true ∧ b.vk = false) ∧
    b.ports.stat.getLsbD 6 = b.ports.unknownVendor) ∧
  (∀ (s : State) (id : Byte), s.block.err = 0x00#8 → s.block.idv = false → id.extractLsb' 3 5 ≠ 0b11001#5 →
    ∃ t, exec (.deci id) s = .next t ∧ t.block.ports.unknownVendor = true ∧ t.block.err = 0x00#8) ∧
  (∀ (k : Nat) (s t : State), s.block.ports.unknownVendor = true → NoReset s.inputs → runSteps k s = .next t →
    t.block.ports.unknownVendor = true)

/-! ## Invariants -/

/-- Every step, from every state that meets the laws of 10_state.md (R12 to R17, R23, R65, R72, R83), gives a state that
meets them. That an element without a value is `none` is R28's option type (log entry 1, DEDUCED, safe). -/
def Obligations.EveryStepKeepsTheBlockInvariant : Prop :=
  ∀ s t : State, s.block.Inv → step s = .next t → t.block.Inv

/-- The reset state meets them (R28). -/
def Obligations.ResetMeetsTheBlockInvariant : Prop := State.reset.block.Inv

/-- R66, R14: the first `DECI` after reset writes the identity and sets `IDV`; any later one faults and leaves the four
elements; no other command writes them; so from `IDV = 1` until `Reset` they are constant over any number of steps. -/
def Obligations.IdentityIsWrittenOnceAndThenConstant : Prop :=
  (∀ (s : State) (id : Byte), s.block.err = 0x00#8 → s.block.idv = false →
    ∃ t m r, exec (.deci id) s = .next t ∧ t.block.idv = true ∧ t.block.mfg = some m ∧ t.block.rev = some r ∧
      m ++ r = id ∧ t.block.err = 0x00#8) ∧
  (∀ (s : State) (id : Byte), s.block.err = 0x00#8 → s.block.idv = true →
    ∃ t, exec (.deci id) s = .next t ∧ t.block.err = 0x02#8 ∧ t.block.mfg = s.block.mfg ∧ t.block.rev = s.block.rev ∧
      t.block.vk = s.block.vk ∧ t.block.idv = true) ∧
  (∀ (i : Instr) (s t : State), (∀ id, i ≠ .deci id) → exec i s = .next t →
    t.block.mfg = s.block.mfg ∧ t.block.rev = s.block.rev ∧ t.block.vk = s.block.vk ∧ t.block.idv = s.block.idv) ∧
  (∀ (k : Nat) (s t : State), s.block.idv = true → NoReset s.inputs → runSteps k s = .next t →
    t.block.mfg = s.block.mfg ∧ t.block.rev = s.block.rev ∧ t.block.vk = s.block.vk ∧ t.block.idv = true)

/-- R57, R107: from a block that has no report of 16-bit mode and no confirmed sample, no run without such a report, of any
length, resets included, gives a Celsius value, whatever mode the sensor was in. -/
def Obligations.NoCelsiusWithoutAModeReport : Prop :=
  ∀ (k : Nat) (s t : State), s.block.res16 = false → s.block.tsc = false → NoModeReport s.inputs →
    runSteps k s = .next t →
    (∀ sensorIn16BitMode, t.block.celsius sensorIn16BitMode = none) ∧ t.block.res16 = false ∧ t.block.tsc = false

/-- Over a state that meets the laws of 10_state.md, the ports that R20 calls always meaningful show their flag or view,
`unknown_vendor` and `stat` among them; each other port shows a value, the element's, when R20 calls it meaningful, and
none when not (R20, R110; that it shows none is how the model says "unspecified", log entry 8, DEDUCED, safe). -/
def Obligations.PortsShowValuesExactlyWhenMeaningful : Prop :=
  ∀ b : Block, b.Inv →
    (b.ports.tempValid = true → ∃ c, b.temp = some c ∧ b.ports.temp = some c ∧ b.ports.tempScaleOk = some b.tsc) ∧
    (b.ports.tempValid = false → b.ports.temp = none ∧ b.ports.tempScaleOk = none) ∧
    (b.ports.idValid = true → ∃ m r, b.mfg = some m ∧ b.rev = some r ∧ b.ports.mfg = some m ∧ b.ports.rev = some r ∧
      b.ports.vendorKnown = some b.vk) ∧
    (b.ports.idValid = false → b.ports.mfg = none ∧ b.ports.rev = none ∧ b.ports.vendorKnown = none) ∧
    (b.ports.fahrValid = true → ∃ f, b.fahr = some f ∧ b.ports.fahr = some f) ∧
    (b.ports.fahrValid = false → b.ports.fahr = none) ∧
    (b.ports.err ≠ 0x00#8 → ∃ w, b.ecmd = some w ∧ b.ports.ecmd = some w) ∧
    (b.ports.err = 0x00#8 → b.ports.ecmd = none) ∧
    b.ports.res16 = b.res16 ∧ b.ports.err = b.err ∧ b.ports.tempValid = b.tv ∧ b.ports.idValid = b.idv ∧
    b.ports.fahrValid = b.fv ∧ b.ports.unknownVendor = (b.idv && !b.vk) ∧ b.ports.stat = b.stat

/-- R18: the eight bits of `stat`. -/
def Obligations.StatusViewHasItsEightBits : Prop :=
  ∀ b : Block,
    b.stat.getLsbD 0 = b.res16 ∧ b.stat.getLsbD 1 = b.idv ∧ b.stat.getLsbD 2 = b.vk ∧ b.stat.getLsbD 3 = b.tv ∧
    b.stat.getLsbD 4 = b.tsc ∧ b.stat.getLsbD 5 = b.fv ∧ b.stat.getLsbD 6 = (b.idv && !b.vk) ∧
    b.stat.getLsbD 7 = decide (b.err ≠ 0x00#8)

/-! ## What the values mean -/

/-- R56, R60: the signed reading of the pattern is `uint` or `uint - 65536` by bit 15, lies in -32768 to 32767, and is the
document's two-branch formula on the naturals for all 65536 pairs; after a `DECT` it is the reading of `TEMP`. -/
def Obligations.SignedReadingIsTheDocumentsFormula : Prop :=
  (∀ c : TempCode, c.toInt = (if c.getLsbD 15 then (c.toNat : Int) - 65536 else (c.toNat : Int)) ∧
    -32768 ≤ c.toInt ∧ c.toInt ≤ 32767) ∧
  (∀ msb lsb : Byte, (msb ++ lsb : TempCode).toInt =
    (let adc := (msb.toNat <<< 8) ||| lsb.toNat
     if adc.testBit 15 then (adc : Int) - 65536 else (adc : Int))) ∧
  (∀ (s : State) (msb lsb : Byte), s.block.err = 0x00#8 →
    ∃ t, exec (.dect msb lsb) s = .next t ∧ t.block.signedReading = some (documentSigned msb lsb))

/-- Laws of the decode from R59, of the signed readings `v` and `w` that the block gives after `DECT` of two pairs on a live
block: equal readings come from equal pairs; zero from the pair of zeros only; negative exactly when bit 7 of the high byte
is set; among pairs with the same bit 7 the reading rises with the unsigned code, and a pair with it set reads below one
without; the high byte counts 256 with its sign; every reading lies in -32768 to 32767 and each of those is one. -/
def Obligations.SignedReadingLaws : Prop :=
  ∀ s : State, s.block.err = 0x00#8 →
    (∀ m1 l1 m2 l2 : Byte, ∃ t u v w, exec (.dect m1 l1) s = .next t ∧ exec (.dect m2 l2) s = .next u ∧
      t.block.signedReading = some v ∧ u.block.signedReading = some w ∧
      (v = w → m1 = m2 ∧ l1 = l2) ∧
      (v = 0 ↔ m1 = 0x00#8 ∧ l1 = 0x00#8) ∧
      (v < 0 ↔ m1.getLsbD 7 = true) ∧
      (m1.getLsbD 7 = m2.getLsbD 7 →
        (256 * m1.toNat + l1.toNat < 256 * m2.toNat + l2.toNat ↔ v < w)) ∧
      (m1.getLsbD 7 = true → m2.getLsbD 7 = false → v < w) ∧
      v = 256 * m1.toInt + l1.toNat ∧ -32768 ≤ v ∧ v ≤ 32767) ∧
    (∀ v : Int, -32768 ≤ v → v ≤ 32767 →
      ∃ m l t, exec (.dect m l) s = .next t ∧ t.block.signedReading = some v)

/-- R57, R107: on a live block `CFG 0x80` and then `DECT` give the Celsius value of the document's formula under the premise
that the sensor was in 16-bit mode, and none without it: the premise is the only thing left; the same `DECT` after
`CFG 0x00` gives none, whatever mode the sensor was in. -/
def Obligations.CelsiusNeedsTheReportedMode : Prop :=
  ∀ (s : State) (msb lsb : Byte), s.block.err = 0x00#8 →
    (∃ t, presentAll [Pins.command 0x048000#24, Pins.command (0x01#8 ++ msb ++ lsb)] s = .next t ∧
      t.block.celsius true = some (documentTemperature msb lsb) ∧ t.block.celsius false = none ∧
      ∀ sensorIn16BitMode : Prop,
        MeansCelsius sensorIn16BitMode t.block (documentTemperature msb lsb) ↔ sensorIn16BitMode) ∧
    (∃ t, presentAll [Pins.command 0x040000#24, Pins.command (0x01#8 ++ msb ++ lsb)] s = .next t ∧
      (∀ sensorIn16BitMode, t.block.celsius sensorIn16BitMode = none) ∧ t.block.temp = some (msb ++ lsb) ∧
      ∀ (sensorIn16BitMode : Prop) (q : Rat), ¬ MeansCelsius sensorIn16BitMode t.block q)

/-- R58: the number a code stands for is its integer part, the floor, plus its fraction part over 128, which is 0 to 127;
and the example 0xFED4. It is a temperature under R107's premise only: this is arithmetic of the code (log entry 18, DEDUCED, unsafe). -/
def Obligations.CodeSplitsIntoFloorAndFraction : Prop :=
  (∀ c : TempCode,
    celsiusOfCode c = ((c.extractLsb' 7 9).toInt : Rat) + ((c.extractLsb' 0 7).toNat : Rat) / 128 ∧
    celsiusOfCode c = (c.toInt : Rat) / 128 ∧ (c.extractLsb' 7 9).toInt = ⌊(c.toInt : Rat) / 128⌋ ∧
    (c.extractLsb' 0 7).toNat ≤ 127 ∧
    integerPart c = (c.extractLsb' 7 9).toInt ∧ fractionPart c = (c.extractLsb' 0 7).toNat) ∧
  (0xFED4#16).toInt = -300 ∧ (0xFED4#16).extractLsb' 7 9 = 0b111111101#9 ∧ integerPart 0xFED4#16 = -3 ∧
    fractionPart 0xFED4#16 = 84

/-- R72: the numerator lies in -274432 to 315383, `trunc_20` loses nothing, 19 bits would not do, the map is strictly
increasing; and the corner cases of the table. -/
def Obligations.FahrenheitNumeratorIsExact : Prop :=
  (∀ (s : State) (hi lo : Byte), s.block.err = 0x00#8 →
    ∃ t f, exec (.cvtf hi lo) s = .next t ∧ t.block.fahr = some f ∧
      f.toInt = 9 * (hi ++ lo : TempCode).toInt + 20480 ∧ -274432 ≤ f.toInt ∧ f.toInt ≤ 315383) ∧
  (∀ c d : TempCode, c.toInt < d.toInt ↔ (fahrCode c).toInt < (fahrCode d).toInt) ∧
  (∃ c : TempCode, (BitVec.ofInt 19 (9 * c.toInt + 20480)).toInt ≠ 9 * c.toInt + 20480) ∧
  (∀ r ∈ [(0x0000#16, 0x05000#20), (0x3200#16, 0x21200#20), (0x0960#16, 0x0A460#20), (0xEC00#16, 0xF9C00#20),
      (0x7FFF#16, 0x4CFF7#20), (0x8000#16, 0xBD000#20), (0x0001#16, 0x05009#20), (0xFFFF#16, 0x04FF7#20),
      (0xF71C#16, 0xFFFFC#20)], fahrCode r.1 = r.2)

/-- R71: while `FV = 1` the Fahrenheit value is sint_20(FAHR)/640; after `CVTF` it is exactly c * 9/5 + 32 for the number c =
sint_16/128 of the operand, a temperature under R107's premise only (log entry 18, DEDUCED, unsafe); one code step moves `FAHR` by 9. -/
def Obligations.FahrenheitIsNineFifthsPlusThirtyTwo : Prop :=
  (∀ (b : Block) (f : FahrCode), b.fv = true → b.fahr = some f → b.fahrenheit = some ((f.toInt : Rat) / 640)) ∧
  (∀ (s : State) (hi lo : Byte), s.block.err = 0x00#8 →
    ∃ t, exec (.cvtf hi lo) s = .next t ∧
      t.block.fahrenheit = some (((hi ++ lo : TempCode).toInt : Rat) / 128 * 9 / 5 + 32)) ∧
  (∀ c d : TempCode, d.toInt = c.toInt + 1 → (fahrCode d).toInt = (fahrCode c).toInt + 9)

/-- R68: the two fields partition the byte; its value is 8 times the first plus the second; the decode is injective, and
it is the document's shift and mask. -/
def Obligations.IdentityFieldsPartitionTheByte : Prop :=
  (∀ (s : State) (id : Byte), s.block.err = 0x00#8 → s.block.idv = false →
    ∃ t m r, exec (.deci id) s = .next t ∧ t.block.mfg = some m ∧ t.block.rev = some r ∧ m ++ r = id ∧
      id.toNat = 8 * m.toNat + r.toNat ∧ m.toNat = (id.toNat >>> 3) &&& 0b11111 ∧ r.toNat = id.toNat &&& 0b111) ∧
  (∀ x y : Byte, mfgField x = mfgField y → revField x = revField y → x = y)

/-- R65: `VK = 1` exactly when the manufacturer code is 0b11001, that is for exactly the eight ID bytes 0xC8 to 0xCF; the
revision code takes no part. -/
def Obligations.VendorIsKnownForExactlyEightBytes : Prop :=
  (∀ (s : State) (id : Byte), s.block.err = 0x00#8 → s.block.idv = false →
    ∃ t m, exec (.deci id) s = .next t ∧ t.block.mfg = some m ∧ (t.block.vk = true ↔ m = 0b11001#5) ∧
      (t.block.vk = true ↔ 0xC8 ≤ id.toNat ∧ id.toNat ≤ 0xCF)) ∧
  (∀ (m : MfgCode) (r q : RevCode), vendorKnown Config.knownVendorCodes (mfgField (m ++ r)) =
    vendorKnown Config.knownVendorCodes (mfgField (m ++ q)))

/-! ## Sequences -/

/-- R112, R62: after `DECT p1; CVTF p1; DECT p2` on a live block `TEMP` is of p2 beside `FAHR` of p1, both valid, and `TSC` is
the `RES16` of the last `DECT`. -/
def Obligations.FahrenheitCanBeStaleBesideANewSample : Prop :=
  ∀ (s : State) (m1 l1 m2 l2 : Byte), s.block.err = 0x00#8 →
    ∃ t, presentAll [Pins.command (encode (.dect m1 l1)), Pins.command (encode (.cvtf m1 l1)),
        Pins.command (encode (.dect m2 l2))] s = .next t ∧
      t.block = { s.block with
        temp := some (m2 ++ l2), tv := true, tsc := s.block.res16,
        fahr := some (BitVec.ofInt 20 (9 * (m1 ++ l1 : TempCode).toInt + 20480)), fv := true }

/-- R76, R12: a `CFG` after a `DECT` does not change what that `DECT` recorded; the next `DECT` takes the new report (program
P6 of 95_test_vectors.md with any pairs). -/
def Obligations.ScaleFlagBelongsToTheLastDect : Prop :=
  ∀ (s : State) (m1 l1 m2 l2 c : Byte), s.block.err = 0x00#8 →
    ∃ t u, presentAll [Pins.command (encode (.dect m1 l1)), Pins.command (encode (.cfg c))] s = .next t ∧
      t.block.tsc = s.block.res16 ∧ t.block.res16 = c.getLsbD 7 ∧
      presentAll [Pins.command (encode (.dect m2 l2))] t = .next u ∧ u.block.tsc = c.getLsbD 7

/-- R105, R111: after a `DECI`, a second `DECI` without a `Reset` between them leaves the block faulted, whatever was
presented between; with a `Reset` in between the new identity stands. -/
def Obligations.NewSessionNeedsAReset : Prop :=
  (∀ (s : State) (ps : List Pins) (id1 id2 : Byte), NoReset ps →
    ∃ t, presentAll (Pins.command (encode (.deci id1)) :: (ps ++ [Pins.command (encode (.deci id2))])) s = .next t ∧
      t.block.err ≠ 0x00#8) ∧
  (∀ (s : State) (id : Byte), ∃ t, presentAll [Pins.reset, Pins.command (encode (.deci id))] s = .next t ∧
    t.block.err = 0x00#8 ∧ t.block.idv = true ∧ t.block.mfg = some (id.extractLsb' 3 5))

/-- The document's end-to-end sequence (program P1; R98, R99), for any identity byte and any pair, from any state: it ends
well (R116), with every element as R55, R63, R70 and R76 give it. Its Celsius value is a value under the premise that the
sensor was in 16-bit mode when both bytes were read, which the block cannot see, and there is none without it (R57, R107;
log entry 18, DEDUCED, unsafe); its Fahrenheit value is the conversion of the code (R71). -/
def Obligations.DocumentsSequenceEndsWell : Prop :=
  ∀ (s : State) (id msb lsb : Byte),
    let ps := [Pins.reset, Pins.command (encode (.deci id)), Pins.command (encode (.cfg 0x80#8)),
      Pins.command (encode (.dect msb lsb)), Pins.command (encode (.cvtf msb lsb))]
    EndedWell ps s ∧
    ∃ t, presentAll ps s = .next t ∧
      t.block = {
        temp := some (msb ++ lsb), tv := true, tsc := true, mfg := some (id.extractLsb' 3 5),
        rev := some (id.extractLsb' 0 3), vk := decide (id.extractLsb' 3 5 = 0b11001#5), idv := true,
        fahr := some (BitVec.ofInt 20 (9 * (msb ++ lsb : TempCode).toInt + 20480)), fv := true, res16 := true,
        err := 0x00#8, ecmd := none } ∧
      (∀ sensorIn16BitMode : Prop,
        MeansCelsius sensorIn16BitMode t.block (((msb ++ lsb : TempCode).toInt : Rat) / 128) ↔ sensorIn16BitMode) ∧
      t.block.celsius true = some (((msb ++ lsb : TempCode).toInt : Rat) / 128) ∧ t.block.celsius false = none ∧
      t.block.fahrenheit = some (((msb ++ lsb : TempCode).toInt : Rat) / 128 * 9 / 5 + 32)

/-! ## The host's session (60_exceptions.md, part 4) -/

/-- R98, R97, R34: a connect whose transactions all succeed does R98's actions in R98's order, on the session's bus, on a
machine in any state, and leaves the block as the table of R97 says for `Connected`. The moment and the fields of the
connect record are the model's choice (log entry 17, DESIGN CHOICE, unsafe). -/
def Obligations.SuccessfulConnectFollowsTheSequence : Prop :=
  ∀ (bus : Nat) (m : State) (id : Byte) (time : Nat),
    ∃ h, connect { opened := true, id := some id, written := true, time := time } (Session.start bus m) =
        .next (h, none) ∧
      h.phase = .connected ∧ h.busOpen = true ∧
      h.trace = [.present Pins.reset, .bus (.openHandle bus 0x49), .bus (.readByte Config.regId),
        .present (Pins.command (encode (.deci id))), .bus (.writeByte Config.regConfig 0x80#8),
        .present (Pins.command (encode (.cfg 0x80#8))),
        .record (.connect time (if id.extractLsb' 3 5 = 0b11001#5 then "Analog Devices" else "unknown")
          (some (id.extractLsb' 3 5)) (some (id.extractLsb' 0 3)))] ∧
      h.machine.block.idv = true ∧ h.machine.block.res16 = true ∧ h.machine.block.tv = false ∧
      h.machine.block.err = 0x00#8

/-- R98, R93, R100: a connect in which `open`, the ID read or the configuration write fails reports `ConnectError` with the
transaction that failed, never reaches `Connected`, holds no handle, and presents exactly the commands before the failure.
That the session stays `Uninitialized` and the handle is closed then is the model's reading (log entries 15 and 17, DESIGN CHOICE, unsafe). -/
def Obligations.FailedConnectPresentsOnlyWhatCameBefore : Prop :=
  ∀ (bus : Nat) (m : State) (c : ConnectInputs), (c.opened = false ∨ c.id = none ∨ c.written = false) →
    ∃ h op, connect c (Session.start bus m) = .next (h, some (.connectError op)) ∧
      op = (if c.opened then
              if c.id = none then .readByte Config.regId else .writeByte Config.regConfig 0x80#8
            else .openHandle bus 0x49) ∧
      h.phase = .uninitialized ∧ h.busOpen = false ∧ h.records = [] ∧
      (c.opened = false ∨ c.id = none → h.presented = [Pins.reset]) ∧
      (∀ id, c.opened = true → c.id = some id → h.presented = [Pins.reset, Pins.command (encode (.deci id))])

/-- R97: any sequence of calls on a session, whatever the bus answers and whatever state the machine was in, completes and
keeps R97's table in all four rows, as `Session.Matches` writes it. Four things in it are the model's and not R97's: that
any block matches while nothing was presented (log entry 4, DEDUCED, safe); what a call that is no transition does, and that a
failed connect leaves the session `Uninitialized` (log entry 15, DESIGN CHOICE, unsafe); that a disconnect closes the handle
and then writes its record, with which the trace of a `Disconnected` session ends, and what counts as a sample's record (log
entry 17, DESIGN CHOICE, unsafe); and that both outcomes are allowed when a session's first read fails (log entry 14, DESIGN CHOICE, safe). -/
def Obligations.SessionsKeepTheCorrespondence : Prop :=
  ∀ (bus : Nat) (m : State) (es : List HostEvent), ∃ h e,
    hostEvents es (Session.start bus m) = .next (h, e) ∧ h.Matches

/-- R101: whatever the calls and the bus, the Recorder gets one connect record, then samples, then one disconnect record,
in that order. What a call that is no transition does, when a record is written, and that a failure's log line is no
record, are the model's choices (log entries 15 and 17, DESIGN CHOICE, unsafe). -/
def Obligations.RecordsAreInOrder : Prop :=
  ∀ (bus : Nat) (m : State) (es : List HostEvent), ∃ h e,
    hostEvents es (Session.start bus m) = .next (h, e) ∧ RecordsInOrder h

/-- R99, R101, R102, R93: a polling loop whose bus reads all succeed, on a session that may poll and a live block, records
exactly one sample a read, each with its own pair, scale flag and conversion, then exactly one disconnect record, and
releases the handle. A publishing request that fails does not end it, unless publishing is the loop's sole purpose. The
fields of a sample record are the model's choice (log entry 17, DESIGN CHOICE, unsafe), and so is what happens to a sample when publishing fails
(log entry 22, DESIGN CHOICE, unsafe). -/
def Obligations.PollingLoopRecordsEverySample : Prop :=
  ∀ (h : Session) (publishOnly : Bool) (time : Nat) (reads : List (Byte × Byte × Nat × Bool × Option Bool)),
    (h.phase = .connected ∨ h.phase = .polling) → h.machine.block.err = 0x00#8 →
    (publishOnly = false ∨ ∀ q ∈ reads, q.2.2.2.2 ≠ some false) →
    ∃ h', pollLoop publishOnly (reads.map fun q =>
          { msb := some q.1, lsb := some q.2.1, time := q.2.2.1, convert := q.2.2.2.1, publish := q.2.2.2.2,
            failedFirstPolls := false })
        time h = .next (h', none) ∧
      h'.phase = .disconnected ∧ h'.busOpen = false ∧ h'.machine.block.err = 0x00#8 ∧
      h'.records = h.records ++ (reads.map fun q =>
          Record.sample q.2.2.1 (some (q.1 ++ q.2.1)) (some h.machine.block.res16)
            (if q.2.2.2.1 then some (BitVec.ofInt 20 (9 * (q.1 ++ q.2.1 : TempCode).toInt + 20480)) else none)) ++
        [Record.disconnect time]

/-- R94, R93, R99: a failed read presents nothing to the block, leaves the machine as it was and the session's state too, but
for the first read of a session, after which both readings are allowed (log entry 14, DESIGN CHOICE, safe), and is reported with the
register that could not be read, the first of the two if both could not (log entry 23, DESIGN CHOICE, unsafe); in the loop it is logged and ends the polling: the loop disconnects, once, and does not
retry. That the log line of the failure is not counted among R101's records, so that the records stay as they were and then
take the disconnect record only, is the model's choice (log entry 17, DESIGN CHOICE, unsafe). -/
def Obligations.FailedReadPresentsNothingAndEndsTheLoop : Prop :=
  ∀ (h : Session) (r : ReadInputs) (rest : List ReadInputs) (publishOnly : Bool) (time : Nat),
    (h.phase = .connected ∨ h.phase = .polling) → (r.msb = none ∨ r.lsb = none) →
    ∃ failed : HostError,
      failed = .readError (.readByte (if r.msb = none then Config.regTempMsb else Config.regTempLsb)) ∧
      (∃ h', readOnce r h = .next (h', some failed) ∧ h'.machine = h.machine ∧ h'.presented = h.presented ∧
        h'.records = h.records ∧ h'.readBefore = true ∧
        (h.readBefore = true ∨ h.phase = .polling → h'.phase = h.phase) ∧
        (h'.phase = h.phase ∨ h'.phase = .polling)) ∧
      (∃ h', pollLoop publishOnly (r :: rest) time h = .next (h', some failed) ∧ h'.machine = h.machine ∧
        h'.presented = h.presented ∧ h'.phase = .disconnected ∧ h'.busOpen = false ∧
        .logFailure failed ∈ h'.trace ∧ h'.records = h.records ++ [Record.disconnect time])

/-- R100, R99, R97: `disconnect()` leads to `Disconnected` and sends the block nothing; a second one is a no-op;
`read_once()` on a disconnected session is rejected with no effect at all; and no calls, of any kind and number, bring such
a session or its block to change again. That `connect` is rejected too is the model's choice (log entry 15, DESIGN CHOICE, unsafe). -/
def Obligations.DisconnectIsIdempotentAndFinal : Prop :=
  ∀ (h : Session) (time later : Nat) (r : ReadInputs), (h.phase = .connected ∨ h.phase = .polling) →
    ∃ h', disconnect time h = .next (h', none) ∧ h'.phase = .disconnected ∧ h'.busOpen = false ∧
      h'.machine = h.machine ∧ h'.presented = h.presented ∧
      disconnect later h' = .next (h', none) ∧ readOnce r h' = .next (h', some .rejected) ∧
      ∀ es : List HostEvent, hostEvents es h' = .next (h', none)

/-- R93: a publishing request that fails leaves the sensing as it was: the sample is recorded and the block holds it as
without a Publisher; the failure is logged and reported; a loop whose sole purpose is publishing ends there with one
disconnect record, and any other loop goes on as a loop over the rest. Three
things are the model's choice: that the sample is recorded before it is published (log entry 22, DESIGN CHOICE, unsafe); that the
log line is no record (log entry 17, DESIGN CHOICE, unsafe); and that the loop waits only if another read follows, none after
the last (log entry 16, DESIGN CHOICE, unsafe). -/
def Obligations.PublishErrorAbandonsOnlyThePublishing : Prop :=
  ∀ (h : Session) (r : ReadInputs) (msb lsb : Byte) (rest : List ReadInputs) (time : Nat),
    (h.phase = .connected ∨ h.phase = .polling) → h.machine.block.err = 0x00#8 →
    r.msb = some msb → r.lsb = some lsb → r.publish = some false →
    ∃ h' quiet, readOnce r h = .next (h', some .publishError) ∧ readOnce { r with publish := none } h = .next (quiet, none) ∧
      h'.machine = quiet.machine ∧ h'.phase = .polling ∧ h'.records = quiet.records ∧
      h'.machine.block.temp = some (msb ++ lsb) ∧
      h'.trace = quiet.trace ++ [.publish r.time (some (msb ++ lsb)) (some h.machine.block.res16),
        .logFailure .publishError] ∧
      pollLoop false (r :: rest) time h = pollLoop false rest time (waitBefore rest h') ∧
      ∃ ended, pollLoop true (r :: rest) time h = .next (ended, some .publishError) ∧
        ended.machine = h'.machine ∧ ended.phase = .disconnected ∧ ended.busOpen = false ∧
        ended.records = h'.records ++ [Record.disconnect time]

/-- R113: a host that looks at `err` before it uses a result records no stale sample: on a faulted block, reads that all
succeed give no record and no publishing, the block stays as it is, and the caller is told; the loop ends. What the host
does when `err` is not 0x00 the spec does not say; this is the model's choice (log entry 21, DESIGN CHOICE, unsafe), and so is
that the log line of the fault is not counted among the records (log entry 17, DESIGN CHOICE, unsafe). -/
def Obligations.HostUsesNoResultOfAFaultedBlock : Prop :=
  ∀ (h : Session) (r : ReadInputs) (msb lsb : Byte) (rest : List ReadInputs) (publishOnly : Bool) (time : Nat),
    (h.phase = .connected ∨ h.phase = .polling) → h.machine.block.err ≠ 0x00#8 →
    r.msb = some msb → r.lsb = some lsb →
    (∃ h', readOnce r h = .next (h', some .blockFault) ∧ h'.machine = h.machine ∧ h'.phase = h.phase ∧
      h'.records = h.records ∧ (∀ time temp ok, .publish time temp ok ∈ h'.trace → .publish time temp ok ∈ h.trace)) ∧
    (∃ h', pollLoop publishOnly (r :: rest) time h = .next (h', some .blockFault) ∧ h'.machine = h.machine ∧
      h'.phase = .disconnected ∧ h'.busOpen = false ∧ h'.records = h.records ++ [Record.disconnect time])
end

