-- ==== Sys2Proof/Laws/Decode.lean ====
section
/-! SUPPORT. The fields of a word and their joining; the decoder read as cases. -/

namespace Sys2Proof

/-- The fields of a joined word are the fields joined. -/
@[simp] theorem fieldsOf_wordOf (f : Fields) : fieldsOf (wordOf f) = f := by
  obtain ⟨o, a, b⟩ := f
  simp only [fieldsOf, wordOf, Fields.mk.injEq]
  refine ⟨?_, ?_, ?_⟩ <;> apply BitVec.eq_of_getLsbD_eq <;> intro i hi <;>
    simp only [BitVec.getLsbD_extractLsb', BitVec.getLsbD_append, hi, decide_true, Bool.true_and]
  · rw [if_neg (by omega), if_neg (by omega)]
    congr 1
    omega
  · rw [if_neg (by omega), if_pos (by omega)]
    congr 1
    omega
  · rw [if_pos (by omega)]
    congr 1
    omega

/-- Joining the fields of a word gives the word: no bit of it is outside its fields. -/
@[simp] theorem wordOf_fieldsOf (w : CmdWord) : wordOf (fieldsOf w) = w := by
  apply BitVec.eq_of_getLsbD_eq
  intro i hi
  simp only [wordOf, fieldsOf, BitVec.getLsbD_append, BitVec.getLsbD_extractLsb']
  split
  · simp_all
  · split
    · rename_i h1 h2
      simp only [h2, decide_true, Bool.true_and]
      congr 1
      omega
    · rename_i h1 h2
      rw [decide_eq_true (by omega), Bool.true_and]
      congr 1
      omega

/-- A word is determined by its three fields. -/
theorem fieldsOf_injective {v w : CmdWord} (h : fieldsOf v = fieldsOf w) : v = w := by
  rw [← wordOf_fieldsOf v, h, wordOf_fieldsOf]

/-- The fields of a command's word. -/
@[simp] theorem fieldsOf_encode (i : Instr) : fieldsOf (encode i) = encodeFields i := fieldsOf_wordOf _

/-- What the decoder can find in the fields of a word: a command whose fields these are, or an illegal word. -/
theorem decodeFields_cases (f : Fields) :
    (∃ i, decodeFields f = .command i ∧ f = encodeFields i) ∨ (∃ why, decodeFields f = .illegal why) := by
  obtain ⟨o, a, b⟩ := f
  unfold decodeFields
  split
  · rename_i h
    obtain ⟨rfl, rfl, rfl⟩ := h
    exact .inl ⟨.nop, rfl, rfl⟩
  split
  · rename_i h
    subst h
    exact .inl ⟨.dect a b, rfl, rfl⟩
  split
  · rename_i h
    obtain ⟨rfl, rfl⟩ := h
    exact .inl ⟨.deci a, rfl, rfl⟩
  split
  · rename_i h
    subst h
    exact .inl ⟨.cvtf a b, rfl, rfl⟩
  split
  · rename_i h
    obtain ⟨rfl, rfl⟩ := h
    exact .inl ⟨.cfg a, rfl, rfl⟩
  split
  · exact .inr ⟨_, rfl⟩
  · exact .inr ⟨_, rfl⟩

/-- The decoder finds a word illegal exactly when its fields are not well-formed (R42, R46): the check of WellFormed.lean
and the decision list of R45 agree. -/
theorem decodeFields_illegal_iff (f : Fields) :
    (∃ why, decodeFields f = .illegal why) ↔ f.wellFormed = false := by
  obtain ⟨o, a, b⟩ := f
  simp only [decodeFields, Fields.wellFormed, Fields.opcKnown, Fields.aAllowed, Fields.bAllowed, formOfOpc]
  by_cases h0 : o = 0x00#8
  · subst h0
    by_cases ha : a = 0x00#8 <;> by_cases hb : b = 0x00#8 <;> simp [ha, hb]
  by_cases h1 : o = 0x01#8
  · subst h1
    simp
  by_cases h2 : o = 0x02#8
  · subst h2
    by_cases hb : b = 0x00#8 <;> simp [hb]
  by_cases h3 : o = 0x03#8
  · subst h3
    simp
  by_cases h4 : o = 0x04#8
  · subst h4
    by_cases hb : b = 0x00#8 <;> simp [hb]
  simp only [h0, h1, h2, h3, h4, false_and, if_false]
  split <;> simp

/-- A list of three bytes and more is read through the word they make. -/
theorem decodeBytes_cons3 (opc a b : Byte) (rest : List Byte) :
    decodeBytes (opc :: a :: b :: rest) =
      match decodeWord (wordOf { opc := opc, a := a, b := b }) with
      | .command i => .command i rest
      | .illegal why => .illegal why rest := rfl

end Sys2Proof
end

