-- ==== Sys2Proof/Laws/State.lean ====
section
/-! SUPPORT. One lemma per field per update of the block, so that no proof unfolds a record update. -/

namespace Sys2Proof.Machine

/-! ## `Block.writeTemp` -/

@[simp] theorem Block.writeTemp_temp (c : TempCode) (b : Block) : (b.writeTemp c).temp = some c := rfl
@[simp] theorem Block.writeTemp_tv (c : TempCode) (b : Block) : (b.writeTemp c).tv = true := rfl
@[simp] theorem Block.writeTemp_tsc (c : TempCode) (b : Block) : (b.writeTemp c).tsc = b.res16 := rfl
@[simp] theorem Block.writeTemp_mfg (c : TempCode) (b : Block) : (b.writeTemp c).mfg = b.mfg := rfl
@[simp] theorem Block.writeTemp_rev (c : TempCode) (b : Block) : (b.writeTemp c).rev = b.rev := rfl
@[simp] theorem Block.writeTemp_vk (c : TempCode) (b : Block) : (b.writeTemp c).vk = b.vk := rfl
@[simp] theorem Block.writeTemp_idv (c : TempCode) (b : Block) : (b.writeTemp c).idv = b.idv := rfl
@[simp] theorem Block.writeTemp_fahr (c : TempCode) (b : Block) : (b.writeTemp c).fahr = b.fahr := rfl
@[simp] theorem Block.writeTemp_fv (c : TempCode) (b : Block) : (b.writeTemp c).fv = b.fv := rfl
@[simp] theorem Block.writeTemp_res16 (c : TempCode) (b : Block) : (b.writeTemp c).res16 = b.res16 := rfl
@[simp] theorem Block.writeTemp_err (c : TempCode) (b : Block) : (b.writeTemp c).err = b.err := rfl
@[simp] theorem Block.writeTemp_ecmd (c : TempCode) (b : Block) : (b.writeTemp c).ecmd = b.ecmd := rfl

/-! ## `Block.writeIdentity` -/

@[simp] theorem Block.writeIdentity_temp (m : MfgCode) (r : RevCode) (k : Bool) (b : Block) : (b.writeIdentity m r k).temp = b.temp := rfl
@[simp] theorem Block.writeIdentity_tv (m : MfgCode) (r : RevCode) (k : Bool) (b : Block) : (b.writeIdentity m r k).tv = b.tv := rfl
@[simp] theorem Block.writeIdentity_tsc (m : MfgCode) (r : RevCode) (k : Bool) (b : Block) : (b.writeIdentity m r k).tsc = b.tsc := rfl
@[simp] theorem Block.writeIdentity_mfg (m : MfgCode) (r : RevCode) (k : Bool) (b : Block) : (b.writeIdentity m r k).mfg = some m := rfl
@[simp] theorem Block.writeIdentity_rev (m : MfgCode) (r : RevCode) (k : Bool) (b : Block) : (b.writeIdentity m r k).rev = some r := rfl
@[simp] theorem Block.writeIdentity_vk (m : MfgCode) (r : RevCode) (k : Bool) (b : Block) : (b.writeIdentity m r k).vk = k := rfl
@[simp] theorem Block.writeIdentity_idv (m : MfgCode) (r : RevCode) (k : Bool) (b : Block) : (b.writeIdentity m r k).idv = true := rfl
@[simp] theorem Block.writeIdentity_fahr (m : MfgCode) (r : RevCode) (k : Bool) (b : Block) : (b.writeIdentity m r k).fahr = b.fahr := rfl
@[simp] theorem Block.writeIdentity_fv (m : MfgCode) (r : RevCode) (k : Bool) (b : Block) : (b.writeIdentity m r k).fv = b.fv := rfl
@[simp] theorem Block.writeIdentity_res16 (m : MfgCode) (r : RevCode) (k : Bool) (b : Block) : (b.writeIdentity m r k).res16 = b.res16 := rfl
@[simp] theorem Block.writeIdentity_err (m : MfgCode) (r : RevCode) (k : Bool) (b : Block) : (b.writeIdentity m r k).err = b.err := rfl
@[simp] theorem Block.writeIdentity_ecmd (m : MfgCode) (r : RevCode) (k : Bool) (b : Block) : (b.writeIdentity m r k).ecmd = b.ecmd := rfl

/-! ## `Block.writeFahr` -/

@[simp] theorem Block.writeFahr_temp (f : FahrCode) (b : Block) : (b.writeFahr f).temp = b.temp := rfl
@[simp] theorem Block.writeFahr_tv (f : FahrCode) (b : Block) : (b.writeFahr f).tv = b.tv := rfl
@[simp] theorem Block.writeFahr_tsc (f : FahrCode) (b : Block) : (b.writeFahr f).tsc = b.tsc := rfl
@[simp] theorem Block.writeFahr_mfg (f : FahrCode) (b : Block) : (b.writeFahr f).mfg = b.mfg := rfl
@[simp] theorem Block.writeFahr_rev (f : FahrCode) (b : Block) : (b.writeFahr f).rev = b.rev := rfl
@[simp] theorem Block.writeFahr_vk (f : FahrCode) (b : Block) : (b.writeFahr f).vk = b.vk := rfl
@[simp] theorem Block.writeFahr_idv (f : FahrCode) (b : Block) : (b.writeFahr f).idv = b.idv := rfl
@[simp] theorem Block.writeFahr_fahr (f : FahrCode) (b : Block) : (b.writeFahr f).fahr = some f := rfl
@[simp] theorem Block.writeFahr_fv (f : FahrCode) (b : Block) : (b.writeFahr f).fv = true := rfl
@[simp] theorem Block.writeFahr_res16 (f : FahrCode) (b : Block) : (b.writeFahr f).res16 = b.res16 := rfl
@[simp] theorem Block.writeFahr_err (f : FahrCode) (b : Block) : (b.writeFahr f).err = b.err := rfl
@[simp] theorem Block.writeFahr_ecmd (f : FahrCode) (b : Block) : (b.writeFahr f).ecmd = b.ecmd := rfl

/-! ## `Block.writeRes16` -/

@[simp] theorem Block.writeRes16_temp (v : Bool) (b : Block) : (b.writeRes16 v).temp = b.temp := rfl
@[simp] theorem Block.writeRes16_tv (v : Bool) (b : Block) : (b.writeRes16 v).tv = b.tv := rfl
@[simp] theorem Block.writeRes16_tsc (v : Bool) (b : Block) : (b.writeRes16 v).tsc = b.tsc := rfl
@[simp] theorem Block.writeRes16_mfg (v : Bool) (b : Block) : (b.writeRes16 v).mfg = b.mfg := rfl
@[simp] theorem Block.writeRes16_rev (v : Bool) (b : Block) : (b.writeRes16 v).rev = b.rev := rfl
@[simp] theorem Block.writeRes16_vk (v : Bool) (b : Block) : (b.writeRes16 v).vk = b.vk := rfl
@[simp] theorem Block.writeRes16_idv (v : Bool) (b : Block) : (b.writeRes16 v).idv = b.idv := rfl
@[simp] theorem Block.writeRes16_fahr (v : Bool) (b : Block) : (b.writeRes16 v).fahr = b.fahr := rfl
@[simp] theorem Block.writeRes16_fv (v : Bool) (b : Block) : (b.writeRes16 v).fv = b.fv := rfl
@[simp] theorem Block.writeRes16_res16 (v : Bool) (b : Block) : (b.writeRes16 v).res16 = v := rfl
@[simp] theorem Block.writeRes16_err (v : Bool) (b : Block) : (b.writeRes16 v).err = b.err := rfl
@[simp] theorem Block.writeRes16_ecmd (v : Bool) (b : Block) : (b.writeRes16 v).ecmd = b.ecmd := rfl

/-! ## `raiseFault` -/

@[simp] theorem raiseFault_temp (c : FaultCause) (w : CmdWord) (b : Block) : (raiseFault c w b).temp = b.temp := rfl
@[simp] theorem raiseFault_tv (c : FaultCause) (w : CmdWord) (b : Block) : (raiseFault c w b).tv = b.tv := rfl
@[simp] theorem raiseFault_tsc (c : FaultCause) (w : CmdWord) (b : Block) : (raiseFault c w b).tsc = b.tsc := rfl
@[simp] theorem raiseFault_mfg (c : FaultCause) (w : CmdWord) (b : Block) : (raiseFault c w b).mfg = b.mfg := rfl
@[simp] theorem raiseFault_rev (c : FaultCause) (w : CmdWord) (b : Block) : (raiseFault c w b).rev = b.rev := rfl
@[simp] theorem raiseFault_vk (c : FaultCause) (w : CmdWord) (b : Block) : (raiseFault c w b).vk = b.vk := rfl
@[simp] theorem raiseFault_idv (c : FaultCause) (w : CmdWord) (b : Block) : (raiseFault c w b).idv = b.idv := rfl
@[simp] theorem raiseFault_fahr (c : FaultCause) (w : CmdWord) (b : Block) : (raiseFault c w b).fahr = b.fahr := rfl
@[simp] theorem raiseFault_fv (c : FaultCause) (w : CmdWord) (b : Block) : (raiseFault c w b).fv = b.fv := rfl
@[simp] theorem raiseFault_res16 (c : FaultCause) (w : CmdWord) (b : Block) : (raiseFault c w b).res16 = b.res16 := rfl
@[simp] theorem raiseFault_err (c : FaultCause) (w : CmdWord) (b : Block) : (raiseFault c w b).err = faultCode c := rfl
@[simp] theorem raiseFault_ecmd (c : FaultCause) (w : CmdWord) (b : Block) : (raiseFault c w b).ecmd = some w := rfl

/-! ## `Block.reset` and the machine around the block -/

@[simp] theorem Block.reset_temp : Block.reset.temp = none := rfl
@[simp] theorem Block.reset_tv : Block.reset.tv = false := rfl
@[simp] theorem Block.reset_tsc : Block.reset.tsc = false := rfl
@[simp] theorem Block.reset_mfg : Block.reset.mfg = none := rfl
@[simp] theorem Block.reset_rev : Block.reset.rev = none := rfl
@[simp] theorem Block.reset_vk : Block.reset.vk = false := rfl
@[simp] theorem Block.reset_idv : Block.reset.idv = false := rfl
@[simp] theorem Block.reset_fahr : Block.reset.fahr = none := rfl
@[simp] theorem Block.reset_fv : Block.reset.fv = false := rfl
@[simp] theorem Block.reset_res16 : Block.reset.res16 = false := rfl
@[simp] theorem Block.reset_err : Block.reset.err = 0x00#8 := rfl
@[simp] theorem Block.reset_ecmd : Block.reset.ecmd = none := rfl
@[simp] theorem resetBlock_block (s : State) : (resetBlock s).block = Block.reset := rfl
@[simp] theorem resetBlock_inputs (s : State) : (resetBlock s).inputs = s.inputs := rfl
@[simp] theorem State.reset_block : State.reset.block = Block.reset := rfl
@[simp] theorem State.reset_inputs : State.reset.inputs = [] := rfl
@[simp] theorem Pins.command_rst (w : CmdWord) : (Pins.command w).rst = false := rfl
@[simp] theorem Pins.command_cmdValid (w : CmdWord) : (Pins.command w).cmdValid = true := rfl
@[simp] theorem Pins.command_cmd (w : CmdWord) : (Pins.command w).cmd = w := rfl
@[simp] theorem Pins.reset_rst : Pins.reset.rst = true := rfl
@[simp] theorem Pins.idle_rst : Pins.idle.rst = false := rfl
@[simp] theorem Pins.idle_cmdValid : Pins.idle.cmdValid = false := rfl

end Sys2Proof.Machine
end

