-- ==== Sys2Proof/Laws/Ops.lean ====
section
/-! SUPPORT. What the shared operations, a presentation and a step can do, said once. -/

namespace Sys2Proof.Machine

/-- A block is frozen exactly when its fault code is not 0x00. -/
theorem Block.frozen_iff (b : Block) : b.frozen = true ↔ b.err ≠ 0x00#8 := by simp [Block.frozen]

theorem Block.not_frozen_iff (b : Block) : b.frozen = false ↔ b.err = 0x00#8 := by simp [Block.frozen]

/-- On a live block the effect happens. -/
theorem commit_live (effect : Block → Block) {s : State} (h : s.block.err = 0x00#8) :
    commit effect s = .next { s with block := effect s.block } := by simp [commit, Block.frozen, h]

/-- On a frozen block nothing happens. -/
theorem commit_frozen (effect : Block → Block) {s : State} (h : s.block.err ≠ 0x00#8) :
    commit effect s = .next s := by simp [commit, Block.frozen, h]

/-- Everything `commit` can answer. -/
theorem commit_cases {effect : Block → Block} {s : State} {r : Result} (h : commit effect s = r) :
    (s.block.err ≠ 0x00#8 ∧ r = .next s) ∨
      (s.block.err = 0x00#8 ∧ r = .next { s with block := effect s.block }) := by
  by_cases e : s.block.err = 0x00#8
  · exact .inr ⟨e, by rw [← h, commit_live effect e]⟩
  · exact .inl ⟨e, by rw [← h, commit_frozen effect e]⟩

/-- The effect a command has on a live block. -/
def effectOf : Instr → Block → Block
  | .nop => fun b => b
  | .dect msb lsb => Block.writeTemp (imm16 msb lsb)
  | .deci id => identify id
  | .cvtf hi lo => Block.writeFahr (fahrCode (imm16 hi lo))
  | .cfg byte => Block.writeRes16 (resolutionBit byte)

/-- Every meaning is one effect, committed. -/
theorem exec_eq_commit (i : Instr) (s : State) : exec i s = commit (effectOf i) s := by cases i <;> rfl

/-- Everything `identify` can do. -/
theorem identify_cases (id : Byte) (b : Block) :
    (b.idv = true ∧ identify id b = raiseFault .identityLocked (encode (.deci id)) b) ∨
      (b.idv = false ∧
        identify id b =
          b.writeIdentity (mfgField id) (revField id) (vendorKnown Config.knownVendorCodes (mfgField id))) := by
  cases h : b.idv <;> simp [identify, h]

/-- A `Reset` presentation. -/
theorem performPins_reset {p : Pins} (s : State) (h : p.rst = true) : performPins p s = .next (resetBlock s) := by
  simp [performPins, h]

/-- Nothing presented. -/
theorem performPins_idle {p : Pins} (s : State) (h : p.rst = false) (hv : p.cmdValid = false) :
    performPins p s = .next s := by simp [performPins, h, hv]

/-- A command presented. -/
theorem performPins_command {p : Pins} (s : State) (h : p.rst = false) (hv : p.cmdValid = true) :
    performPins p s = performWord p.cmd s := by simp [performPins, h, hv]

/-- Everything a presentation can do. It always answers a next state. -/
theorem performPins_cases (p : Pins) (s : State) :
    (p.rst = true ∧ performPins p s = .next (resetBlock s)) ∨
    (p.rst = false ∧ p.cmdValid = false ∧ performPins p s = .next s) ∨
    (p.rst = false ∧ p.cmdValid = true ∧ s.block.err ≠ 0x00#8 ∧ performPins p s = .next s) ∨
    (p.rst = false ∧ p.cmdValid = true ∧ s.block.err = 0x00#8 ∧ (∃ why, decodeWord p.cmd = .illegal why) ∧
      performPins p s = .next { s with block := raiseFault .illegalCommand p.cmd s.block }) ∨
    (p.rst = false ∧ p.cmdValid = true ∧ s.block.err = 0x00#8 ∧ ∃ i, decodeWord p.cmd = .command i ∧
      p.cmd = encode i ∧ performPins p s = .next { s with block := effectOf i s.block }) := by
  cases hr : p.rst
  · cases hv : p.cmdValid
    · exact .inr (.inl ⟨rfl, rfl, performPins_idle s hr hv⟩)
    · by_cases he : s.block.err = 0x00#8
      · rcases decodeFields_cases (fieldsOf p.cmd) with ⟨i, hd, hf⟩ | ⟨why, hd⟩
        · refine .inr (.inr (.inr (.inr ⟨rfl, rfl, he, i, hd, ?_, ?_⟩)))
          · rw [encode, ← hf, wordOf_fieldsOf]
          · rw [performPins_command s hr hv, performWord, decodeWord, hd]
            simp only
            rw [exec_eq_commit, commit_live _ he]
        · refine .inr (.inr (.inr (.inl ⟨rfl, rfl, he, ⟨why, hd⟩, ?_⟩)))
          rw [performPins_command s hr hv, performWord, decodeWord, hd]
          simp only
          rw [commit_live _ he]
      · refine .inr (.inr (.inl ⟨rfl, rfl, he, ?_⟩))
        rw [performPins_command s hr hv, performWord]
        split
        · rw [exec_eq_commit, commit_frozen _ he]
        · rw [commit_frozen _ he]
  · exact .inl ⟨rfl, performPins_reset s hr⟩

/-- A step with nothing to present. -/
theorem step_no_input {s : State} (h : s.inputs = []) : step s = .next s := by simp [step, h]

/-- A step with something to present. -/
theorem step_input {s : State} {p : Pins} {rest : List Pins} (h : s.inputs = p :: rest) :
    step s = performPins p { s with inputs := rest } := by simp [step, h]

end Sys2Proof.Machine
end

