-- ==== Sys2Proof/Laws/PerInstr.lean ====
section
/-! SUPPORT. Facts about every command as syntax, one lemma a constructor. -/

/-- The word of a command has well-formed fields, and they leave the bytes its form does not use at 0x00
(30_encoding.md R42). -/
def Sys2Proof.Laws.UnusedBytesAreZero.Statement (i : Sys2Proof.Instr) : Prop :=
  (Sys2Proof.fieldsOf (Sys2Proof.encode i)).wellFormed = true ∧
    Sys2Proof.formOfOpc (Sys2Proof.fieldsOf (Sys2Proof.encode i)).opc = some i.form ∧
    (i.form = .z → (Sys2Proof.fieldsOf (Sys2Proof.encode i)).a = 0x00#8) ∧
    (i.form ≠ .h → (Sys2Proof.fieldsOf (Sys2Proof.encode i)).b = 0x00#8)

namespace Sys2Proof.Laws.UnusedBytesAreZero

theorem nop : Statement .nop := by
  simp only [Statement, fieldsOf_encode]
  decide

theorem dect (msb lsb : Byte) : Statement (.dect msb lsb) := by
  simp [Statement, encodeFields, Fields.wellFormed, Fields.opcKnown, Fields.aAllowed, Fields.bAllowed, formOfOpc, Instr.form]

theorem deci (id : Byte) : Statement (.deci id) := by
  simp [Statement, encodeFields, Fields.wellFormed, Fields.opcKnown, Fields.aAllowed, Fields.bAllowed, formOfOpc, Instr.form]

theorem cvtf (hi lo : Byte) : Statement (.cvtf hi lo) := by
  simp [Statement, encodeFields, Fields.wellFormed, Fields.opcKnown, Fields.aAllowed, Fields.bAllowed, formOfOpc, Instr.form]

theorem cfg (byte : Byte) : Statement (.cfg byte) := by
  simp [Statement, encodeFields, Fields.wellFormed, Fields.opcKnown, Fields.aAllowed, Fields.bAllowed, formOfOpc, Instr.form]

end Sys2Proof.Laws.UnusedBytesAreZero
end

