-- ==== Sys2Proof/Laws/Run.lean ====
section
/-! SUPPORT. Runs: what several steps do, and the one induction every claim over runs uses. -/

namespace Sys2Proof.Machine

@[simp] theorem runSteps_zero (s : State) : runSteps 0 s = .next s := rfl

theorem runSteps_succ_of_next {k : Nat} {s t : State} (h : step s = .next t) :
    runSteps (k + 1) s = runSteps k t := by
  have hs : Sys2Proof.core.step s = .next t := h
  simp only [runSteps, Host.Core.run, hs]
  rfl

/-- A presentation leaves the rest of the list alone and always answers a next state. -/
theorem performPins_next (p : Pins) (s : State) :
    ∃ b, performPins p s = .next { s with block := b } := by
  rcases performPins_cases p s with ⟨_, h⟩ | ⟨_, _, h⟩ | ⟨_, _, _, h⟩ | ⟨_, _, _, _, h⟩ | ⟨_, _, _, i, _, _, h⟩
  · exact ⟨_, h⟩
  · exact ⟨_, h⟩
  · exact ⟨_, h⟩
  · exact ⟨_, h⟩
  · exact ⟨_, h⟩

/-- A property that one presentation keeps, of a list of presentations that all meet `Q`, holds at the end of every run
over that list. -/
theorem runSteps_induction {P : Block → Prop} {Q : Pins → Prop}
    (keep : ∀ p s t, Q p → P s.block → performPins p s = .next t → P t.block) :
    ∀ (k : Nat) (s t : State), (∀ p ∈ s.inputs, Q p) → P s.block → runSteps k s = .next t → P t.block := by
  intro k
  induction k with
  | zero =>
    intro s t _ hp h
    cases h
    exact hp
  | succ k ih =>
    intro s t hq hp h
    cases hs : s.inputs with
    | nil =>
      rw [runSteps_succ_of_next (step_no_input hs)] at h
      exact ih s t hq hp h
    | cons p rest =>
      obtain ⟨b, hb⟩ := performPins_next p { s with inputs := rest }
      rw [runSteps_succ_of_next ((step_input hs).trans hb)] at h
      refine ih _ t ?_ ?_ h
      · intro q hq'
        exact hq q (by rw [hs]; exact List.mem_cons_of_mem _ hq')
      · exact keep p { s with inputs := rest } _ (hq p (by rw [hs]; exact List.mem_cons_self)) hp hb

end Sys2Proof.Machine
end

