-- ==== Sys2Proof/Laws/Session.lean ====
section
/-! SUPPORT. The host's session: what one doing leaves alone, and what a presentation does. -/

namespace Sys2Proof.Machine

@[simp] theorem Session.act_phase (a : Action) (h : Session) : (h.act a).phase = h.phase := rfl
@[simp] theorem Session.act_busOpen (a : Action) (h : Session) : (h.act a).busOpen = h.busOpen := rfl
@[simp] theorem Session.act_machine (a : Action) (h : Session) : (h.act a).machine = h.machine := rfl
@[simp] theorem Session.act_trace (a : Action) (h : Session) : (h.act a).trace = h.trace ++ [a] := rfl

@[simp] theorem Session.act_bus (a : Action) (h : Session) : (h.act a).bus = h.bus := rfl
@[simp] theorem Session.act_readBefore (a : Action) (h : Session) : (h.act a).readBefore = h.readBefore := rfl
@[simp] theorem Session.openBus_readBefore (h : Session) : h.openBus.readBefore = h.readBefore := rfl
@[simp] theorem Session.closeBus_readBefore (h : Session) : h.closeBus.readBefore = h.readBefore := rfl
@[simp] theorem Session.openBus_bus (h : Session) : h.openBus.bus = h.bus := rfl
@[simp] theorem Session.openBus_phase (h : Session) : h.openBus.phase = h.phase := rfl
@[simp] theorem Session.openBus_machine (h : Session) : h.openBus.machine = h.machine := rfl
@[simp] theorem Session.closeBus_bus (h : Session) : h.closeBus.bus = h.bus := rfl
@[simp] theorem Session.closeBus_phase (h : Session) : h.closeBus.phase = h.phase := rfl
@[simp] theorem Session.closeBus_machine (h : Session) : h.closeBus.machine = h.machine := rfl

/-- A record is added at the end of the records. -/
@[simp] theorem Session.records_act_record (r : Record) (h : Session) :
    (h.act (.record r)).records = h.records ++ [r] := by
  simp [Session.records, Action.record?]

/-- A doing that records nothing leaves the records. -/
theorem Session.records_act {a : Action} (h : Session) (ha : a.record? = none) :
    (h.act a).records = h.records := by
  simp [Session.records, ha]

/-- A presentation is added at the end of the presentations. -/
@[simp] theorem Session.presented_act_present (p : Pins) (h : Session) :
    (h.act (.present p)).presented = h.presented ++ [p] := by
  simp [Session.presented, Action.pins?]

/-- A doing that presents nothing leaves the presentations. -/
theorem Session.presented_act {a : Action} (h : Session) (ha : a.pins? = none) :
    (h.act a).presented = h.presented := by
  simp [Session.presented, ha]

/-- A presentation never stops the event: the machine takes its next state, and the event goes on from there. -/
theorem presentThen_of_next {p : Pins} {h : Session} {m : State} (go : Session → HostResult)
    (hm : performPins p h.machine = .next m) :
    presentThen p h go = go ({ h with machine := m }.act (.present p)) := by
  simp [presentThen, hm]

/-- Whatever is presented, the event goes on, with only the block of the machine changed. -/
theorem presentThen_cases (p : Pins) (h : Session) (go : Session → HostResult) :
    ∃ b, performPins p h.machine = .next { h.machine with block := b } ∧
      presentThen p h go = go ({ h with machine := { h.machine with block := b } }.act (.present p)) := by
  obtain ⟨b, hb⟩ := performPins_next p h.machine
  exact ⟨b, hb, presentThen_of_next go hb⟩

/-- `Reset` presented. -/
theorem presentThen_reset (h : Session) (go : Session → HostResult) :
    presentThen Pins.reset h go = go ({ h with machine := resetBlock h.machine }.act (.present Pins.reset)) :=
  presentThen_of_next go (performPins_reset h.machine rfl)

/-- A block with no fault lets the event go on. -/
theorem checkErr_live {h : Session} (onFault : Session) (go : Session → HostResult)
    (he : h.machine.block.err = 0x00#8) : checkErr h onFault go = go h := by
  simp [checkErr, Block.ports, he]

/-- A faulted block ends the event. -/
theorem checkErr_frozen {h : Session} (onFault : Session) (go : Session → HostResult)
    (he : h.machine.block.err ≠ 0x00#8) : checkErr h onFault go = .next (onFault, some .blockFault) := by
  simp [checkErr, Block.ports, he, finish]

/-- Everything a disconnect can do: end a session that polls or may, or nothing. -/
theorem disconnect_cases (time : Nat) (h : Session) :
    ((h.phase = .connected ∨ h.phase = .polling) ∧
      disconnect time h =
        .next ({ h.closeBus with phase := .disconnected }.act (.record (.disconnect time)), none)) ∨
    ((h.phase = .uninitialized ∨ h.phase = .disconnected) ∧ disconnect time h = .next (h, none)) := by
  cases hp : h.phase <;> simp [disconnect, hp, finish]

/-- Everything the Publisher's part of a sample can do: nothing, a request taken, a request that failed and was logged. -/
theorem publishSample_cases (r : ReadInputs) (h : Session) :
    ∃ doings e, publishSample r h = .next ({ h with trace := h.trace ++ doings }, e) ∧
      ((r.publish = none ∧ doings = [] ∧ e = none) ∨
        (r.publish = some true ∧ e = none ∧
          doings = [.publish r.time h.machine.block.ports.temp h.machine.block.ports.tempScaleOk]) ∨
        (r.publish = some false ∧ e = some .publishError ∧
          doings = [.publish r.time h.machine.block.ports.temp h.machine.block.ports.tempScaleOk,
            .logFailure .publishError])) := by
  cases hp : r.publish with
  | none => exact ⟨[], none, by simp [publishSample, hp, finish], .inl ⟨rfl, rfl, rfl⟩⟩
  | some taken =>
    cases taken with
    | true => exact ⟨_, none, by simp [publishSample, hp, finish, Session.act], .inr (.inl ⟨rfl, rfl, rfl⟩)⟩
    | false =>
      exact ⟨_, some .publishError, by simp [publishSample, hp, finish, Session.act], .inr (.inr ⟨rfl, rfl, rfl⟩)⟩

/-- What the loop logs before it ends leaves all of the session but the trace. -/
theorem logEnd_fields (why : Option HostError) (h : Session) :
    (logEnd why h).phase = h.phase ∧ (logEnd why h).machine = h.machine ∧ (logEnd why h).bus = h.bus ∧
      (logEnd why h).records = h.records ∧ (logEnd why h).presented = h.presented := by
  rcases why with _ | e
  · exact ⟨rfl, rfl, rfl, rfl, rfl⟩
  · have hr (x : HostError) := Session.records_act h (a := .logFailure x) rfl
    have hp (x : HostError) := Session.presented_act h (a := .logFailure x) rfl
    cases e <;> simp [logEnd, hr, hp]

/-- A failed read leaves the state of every session that has read before, and of every one that is not `Connected`. -/
theorem phaseAfterReadError_same (r : ReadInputs) {readBefore : Bool} {p : SessionState}
    (h : readBefore = true ∨ p ≠ .connected) : phaseAfterReadError r readBefore p = p := by
  cases p <;> simp_all [phaseAfterReadError]

/-- Everything the state can be after a failed read: what it was, or `Polling` after a first read while `Connected`. -/
theorem phaseAfterReadError_cases (r : ReadInputs) (readBefore : Bool) (p : SessionState) :
    phaseAfterReadError r readBefore p = p ∨
      (p = .connected ∧ readBefore = false ∧ r.failedFirstPolls = true ∧
        phaseAfterReadError r readBefore p = .polling) := by
  cases p <;> cases readBefore <;> cases hf : r.failedFirstPolls <;> simp [phaseAfterReadError, hf]

end Sys2Proof.Machine
end

