-- ==== Sys2Proof/Tests/Slice0.lean ====
section
/-! SUPPORT. Tests. Expected values are those of 95_test_vectors.md and of the rules' own examples, not the model's answers;
then, for every obligation with hypotheses, a witness that meets them. -/

namespace Sys2Proof.Tests

open Sys2Proof.Machine

/-! ## WellFormed: one ill-formed term for each check, refused; the nearest legal one, accepted -/

theorem test_wellFormed_refuses_reserved_opcode :
    ({ opc := 0x05#8, a := 0x00#8, b := 0x00#8 } : Fields).opcKnown = false ∧
      ({ opc := 0x05#8, a := 0x00#8, b := 0x00#8 } : Fields).wellFormed = false := by decide

theorem test_wellFormed_refuses_nop_with_a :
    ({ opc := 0x00#8, a := 0x01#8, b := 0x00#8 } : Fields).aAllowed = false ∧
      ({ opc := 0x00#8, a := 0x01#8, b := 0x00#8 } : Fields).wellFormed = false := by decide

theorem test_wellFormed_refuses_deci_with_b :
    ({ opc := 0x02#8, a := 0xCB#8, b := 0x01#8 } : Fields).bAllowed = false ∧
      ({ opc := 0x02#8, a := 0xCB#8, b := 0x01#8 } : Fields).wellFormed = false := by decide

theorem test_wellFormed_accepts_the_nearest :
    ({ opc := 0x04#8, a := 0x00#8, b := 0x00#8 } : Fields).wellFormed = true ∧
      ({ opc := 0x00#8, a := 0x00#8, b := 0x00#8 } : Fields).wellFormed = true ∧
      ({ opc := 0x02#8, a := 0xCB#8, b := 0x00#8 } : Fields).wellFormed = true := by decide

/-- R50: "Each literal must fit in 8 bits"; R51: 16-bit literals. -/
theorem test_asm_refuses_wide_literals :
    assemble (.dect 256 0) = none ∧ assemble (.dect 0 256) = none ∧ assemble (.deci 256) = none ∧
      assemble (.cfg 256) = none ∧ assemble (.cvtf 0 256) = none ∧ assemble (.dectw 65536) = none ∧
      assemble (.cvtfw 65536) = none := by decide

/-- R51: `128*q` must be an integer in range. -/
theorem test_asm_refuses_celsius_literals :
    celsiusEncodable 256 = false ∧ celsiusEncodable (1 / 256) = false := by
  constructor <;> norm_num [celsiusEncodable]

/-! ## Decoding: words written out bit by bit from R41, R44 and R50 -/

theorem test_decode_nop : decodeWord 0b00000000_00000000_00000000#24 = .command .nop := by decide
theorem test_decode_dect : decodeWord 0b00000001_00001001_01100000#24 = .command (.dect 0x09#8 0x60#8) := by decide
theorem test_decode_deci : decodeWord 0b00000010_11001011_00000000#24 = .command (.deci 0xCB#8) := by decide
theorem test_decode_cvtf : decodeWord 0b00000011_00110010_00000000#24 = .command (.cvtf 0x32#8 0x00#8) := by decide
theorem test_decode_cfg : decodeWord 0b00000100_10000000_00000000#24 = .command (.cfg 0x80#8) := by decide

/-- 95_test_vectors.md, 2.4 and 2.5. -/
theorem test_decode_illegal :
    decodeWord 0x050000#24 = .illegal .reservedOpcode ∧ decodeWord 0xFFFFFF#24 = .illegal .reservedOpcode ∧
      decodeWord 0x000001#24 = .illegal .operandByteNotZero ∧ decodeWord 0x000100#24 = .illegal .operandByteNotZero ∧
      decodeWord 0x048001#24 = .illegal .operandByteNotZero := by decide

/-- P1's column "bytes": 01 09 60 (R49). -/
theorem test_decode_bytes :
    decodeBytes [0x01#8, 0x09#8, 0x60#8, 0x03#8] = .command (.dect 0x09#8 0x60#8) [0x03#8] ∧
      decodeBytes [0x01#8, 0x09#8] = .truncated := by decide

theorem test_decode_table_word :
    decodeTableWord 24 0x02CB00 = some (.deci 0xCB#8) ∧ decodeTableWord 24 0x02CB01 = none := by decide

/-- R50, R51: text and pseudo-commands. -/
theorem test_asm_text :
    instrText (.dect 0x09#8 0x60#8) = "DECT 0x09, 0x60" ∧ instrText (.cfg 0x80#8) = "CFG 0x80" ∧
      instrText .nop = "NOP" := by decide

theorem test_asm_pseudo :
    assemble .cfg16 = some (.cfg 0x80#8) ∧ assemble (.dectw 0x0960) = some (.dect 0x09#8 0x60#8) ∧
      assemble (.cvtfw 0x3200) = some (.cvtf 0x32#8 0x00#8) := by decide

/-! ## Commands: one step on a small state -/

/-- A machine with this block, to which the host presents this word next. -/
def presenting (b : Block) (w : CmdWord) : State := { block := b, inputs := [Pins.command w] }

/-- The block after one step, if the step has a next state. -/
def blockAfter (s : State) : Option Block :=
  match step s with
  | .next t => some t.block
  | .fault _ => none
  | .refused _ => none

/-- Reset, then `CFG 0x80`. -/
def configured : Block := { Block.reset with res16 := true }

/-- Reset, then `DECI 0xCB`. -/
def identified : Block := { Block.reset with mfg := some 25#5, rev := some 3#3, vk := true, idv := true }

/-- Reset, then `DECI 0x5A`: an unknown vendor (P3). -/
def unknownVendorBlock : Block := { Block.reset with mfg := some 11#5, rev := some 2#3, vk := false, idv := true }

/-- The end of P4: a block frozen by a second `DECI`. -/
def frozenBlock : Block := { identified with err := 0x02#8, ecmd := some 0x02C800#24 }

/-- 2.1, row `DECT 0xFE, 0xD4`. -/
theorem test_dect_stores :
    (blockAfter (presenting configured 0x01FED4#24)).map (fun b => (b.temp, b.tv, b.tsc, b.signedReading)) =
      some (some 0xFED4#16, true, true, some (-300)) := by decide

/-- 2.1: from the reset state, no `CFG`: `TSC = 0`, no Celsius value. -/
theorem test_dect_unconfigured :
    (blockAfter (presenting Block.reset 0x018000#24)).map (fun b => (b.temp, b.tv, b.tsc, b.stat)) =
      some (some 0x8000#16, true, false, 0x08#8) := by decide

/-- 2.2, row `DECI 0xCC`. -/
theorem test_deci_known :
    (blockAfter (presenting Block.reset 0x02CC00#24)).map (fun b => (b.mfg, b.rev, b.vk, b.stat)) =
      some (some 25#5, some 4#3, true, 0x06#8) := by decide

/-- P4, step 2. -/
theorem test_deci_locked :
    (blockAfter (presenting identified 0x02C800#24)).map (fun b => (b.err, b.ecmd, b.mfg, b.rev, b.stat)) =
      some (0x02#8, some 0x02C800#24, some 25#5, some 3#3, 0x86#8) := by decide

/-- 2.3, row `CVTF 0x80, 0x00`, on a block with no sample. -/
theorem test_cvtf_smallest :
    (blockAfter (presenting Block.reset 0x038000#24)).map (fun b => (b.fahr, b.fv, b.tv)) =
      some (some 0xBD000#20, true, false) := by decide

/-- 2.3, row `CVTF 0xF7, 0x1C`. -/
theorem test_cvtf_near_zero :
    (blockAfter (presenting Block.reset 0x03F71C#24)).map (fun b => b.fahr) = some (some 0xFFFFC#20) := by decide

/-- 2.4, rows `CFG 0xFF` and `CFG 0x7F`. -/
theorem test_cfg_bit_seven :
    (blockAfter (presenting Block.reset 0x04FF00#24)).map (fun b => b.res16) = some true ∧
      (blockAfter (presenting configured 0x047F00#24)).map (fun b => b.res16) = some false := by decide

/-- P6, step 3: `TSC` stays. -/
theorem test_cfg_keeps_tsc :
    (blockAfter (presenting { configured with temp := some 0x0960#16, tv := true, tsc := true } 0x040000#24)).map
      (fun b => (b.res16, b.tsc, b.stat)) = some (false, true, 0x18#8) := by decide

/-- 2.4: `NOP` changes nothing; a word beside it is illegal. -/
theorem test_nop :
    blockAfter (presenting identified 0x000000#24) = some identified ∧
      (blockAfter (presenting identified 0x000001#24)).map (fun b => (b.err, b.ecmd)) =
        some (0x01#8, some 0x000001#24) := by decide

/-- P4, steps 3 and 4; 2.5: a frozen block drops legal and illegal words. -/
theorem test_frozen :
    blockAfter (presenting frozenBlock 0x010960#24) = some frozenBlock ∧
      blockAfter (presenting frozenBlock 0x060000#24) = some frozenBlock := by decide

/-- 2.5: `Reset` with a command presented in the same step. -/
theorem test_reset_wins :
    blockAfter { block := frozenBlock, inputs := [{ rst := true, cmdValid := true, cmd := 0x010960#24 }] } =
      some Block.reset := by decide

/-- The host's next instruction is run as the first one after reset. -/
theorem test_withFetchWord :
    blockAfter (State.reset.withFetchWord 24 0x048000) = some configured := by decide

/-- S11: 18.75 degrees Celsius, 65.75 degrees Fahrenheit, exactly. -/
theorem test_readings : celsiusOfCode 0x0960#16 = 18.75 ∧ fahrenheitOfCode 0x0A460#20 = 65.75 := by
  have h : (0x0960#16).toInt = 2400 := by decide
  have k : (0x0A460#20).toInt = 42080 := by decide
  constructor
  · rw [celsiusOfCode, h]
    norm_num [Config.celsiusDenominator]
  · rw [fahrenheitOfCode, k]
    norm_num [Config.fahrDenominator]

/-- One presentation without `rst`. -/
theorem noReset_command (w : CmdWord) : NoReset [Pins.command w] := by
  intro p hp
  cases hp with
  | head => rfl
  | tail _ h => cases h

/-! ## Witnesses: states and operands that meet the hypotheses of the obligations -/

/-- A session that may poll. -/
def pollable : Session := { Session.start 1 State.reset with phase := .connected }

/-- A session that has polled. -/
def polled : Session := { Session.start 1 State.reset with phase := .polling }

/-- A session that may poll and whose first read has failed. -/
def retrying : Session := { pollable with readBefore := true }

/-- Reads of which one fails, at each place it can. -/
def failedMsb : ReadInputs := { msb := none, lsb := some 0x60#8, time := 0, convert := true, publish := none,
                                failedFirstPolls := true }
def failedLsb : ReadInputs := { msb := some 0x09#8, lsb := none, time := 0, convert := false, publish := some true,
                                failedFirstPolls := false }

theorem witness_EncodeOfADecodedWordIsTheWord : decodeWord 0x04FF00#24 = .command (.cfg 0xFF#8) := by decide

/-- Each of R46's cases at a boundary, on a live block; beside them the legal neighbours. -/
theorem witness_IllegalWordsAreExactlyThoseNamedAndFault :
    (∃ why, decodeWord 0x050000#24 = .illegal why) ∧ (∃ why, decodeWord 0xFF0000#24 = .illegal why) ∧
    (∃ why, decodeWord 0x000001#24 = .illegal why) ∧ (∃ why, decodeWord 0x000100#24 = .illegal why) ∧
    (∃ why, decodeWord 0x020001#24 = .illegal why) ∧ (∃ why, decodeWord 0x0480FF#24 = .illegal why) ∧
    (∃ i, decodeWord 0x000000#24 = .command i) ∧ (∃ i, decodeWord 0x04FF00#24 = .command i) ∧
    Block.reset.err = 0x00#8 :=
  ⟨⟨_, rfl⟩, ⟨_, rfl⟩, ⟨_, rfl⟩, ⟨_, rfl⟩, ⟨_, rfl⟩, ⟨_, rfl⟩, ⟨_, rfl⟩, ⟨_, rfl⟩, rfl⟩

theorem witness_OpcodeMapRowsSelectExactlyTheirCommand :
    ∃ r ∈ opcodeTable, 0x02CB00#24 &&& r.mask = r.pattern := by decide

theorem witness_PseudoCommandsExpandToOneCommand :
    65535 < 65536 ∧ (128 * (32767 / 128 : Rat) = ((32767 : Int) : Rat)) ∧ (128 * (-256 : Rat) = ((-32768 : Int) : Rat)) ∧
      65536 ≤ 65536 ∧ ¬ ∃ n : Int, 128 * (256 : Rat) = (n : Rat) ∧ -32768 ≤ n ∧ n ≤ 32767 := by
  refine ⟨by norm_num, by norm_num, by norm_num, le_refl _, ?_⟩
  rintro ⟨n, h, _, hn⟩
  have : (n : Rat) ≤ 32767 := by exact_mod_cast hn
  linarith

theorem witness_StepRunsThePresentedCommand :
    (presenting identified 0x048000#24).inputs = Pins.command 0x048000#24 :: [] ∧
      decodeWord 0x048000#24 = .command (.cfg 0x80#8) ∧ decodeTableWord 24 0x010960 = some (.dect 0x09#8 0x60#8) := by
  decide

/-- One port value and block for each of the five clauses. -/
theorem witness_StepChecksInOrder :
    (Pins.reset.rst = true) ∧ (frozenBlock.err ≠ 0x00#8 ∧ (Pins.command 0x000000#24).cmdValid = true) ∧
      (identified.err = 0x00#8 ∧ decodeWord 0x050000#24 = .illegal .reservedOpcode) ∧
      (identified.err = 0x00#8 ∧ identified.idv = true ∧ decodeWord 0x02C800#24 = .command (.deci 0xC8#8)) ∧
      (Block.reset.err = 0x00#8 ∧ Block.reset.idv = false ∧ decodeWord 0x02C800#24 = .command (.deci 0xC8#8)) := by
  decide

theorem witness_EveryStepHasANextState :
    ∀ p, ({ block := identified, inputs := [Pins.idle] } : State).inputs.head? = some p →
      p.rst = false ∧ p.cmdValid = false := by
  intro p h
  cases h
  exact ⟨rfl, rfl⟩

theorem witness_ResetGivesTheResetStateAndOnlyResetClears :
    ({ block := frozenBlock, inputs := [Pins.reset] } : State).inputs = Pins.reset :: [] ∧ Pins.reset.rst = true ∧
      blockAfter (presenting { identified with tv := true, fv := true } 0x02C800#24) =
        some { identified with tv := true, fv := true, err := 0x02#8, ecmd := some 0x02C800#24 } := by decide

theorem witness_OnlyNopChangesNothing : Instr.cfg 0x80#8 ≠ .nop := by decide

/-- For the five completion statements and the statements over a live block: `Block.reset` is live and not identified, and
so is a block that is not a reset state. -/
theorem witness_live :
    State.reset.block.err = 0x00#8 ∧ State.reset.block.idv = false ∧ configured.err = 0x00#8 ∧
      configured.idv = false := by decide

theorem witness_DectCompletesAndStoresThePair : (presenting configured 0x010960#24).block.err = 0x00#8 := by decide
theorem witness_DeciCompletesAndSplitsTheByte : configured.err = 0x00#8 ∧ configured.idv = false := by decide
theorem witness_CvtfCompletesAndConverts : identified.err = 0x00#8 := by decide
theorem witness_CfgCompletesAndRecordsBitSeven : identified.err = 0x00#8 := by decide

/-- One instruction of each shape answers a next state, `DECI` by both ways. -/
theorem witness_CommandsChangeOnlyTheirOwnElements :
    (∃ t, exec (.dect 0x09#8 0x60#8) (presenting identified 0) = .next t) ∧
      (∃ t, exec (.cvtf 0x09#8 0x60#8) (presenting identified 0) = .next t) ∧
      (∃ t, exec (.cfg 0x80#8) (presenting identified 0) = .next t) ∧
      (∃ t, exec .nop (presenting identified 0) = .next t) ∧
      (∃ t, exec (.deci 0xCB#8) (presenting identified 0) = .next t ∧ t.block.err = 0x02#8) ∧
      (∃ t, exec (.deci 0xCB#8) (presenting configured 0) = .next t ∧ t.block.err = 0x00#8) :=
  ⟨⟨_, rfl⟩, ⟨_, rfl⟩, ⟨_, rfl⟩, ⟨_, rfl⟩, ⟨_, rfl, rfl⟩, ⟨_, rfl, rfl⟩⟩

/-- Every flag changes in some step without `rst`. -/
theorem witness_FlagsChangeOnlyByTheirCommand :
    (blockAfter (presenting configured 0x010960#24)).map (fun b => (b.tv, b.tsc)) = some (true, true) ∧
      (blockAfter (presenting configured 0x02CB00#24)).map (fun b => (b.idv, b.vk)) = some (true, true) ∧
      (blockAfter (presenting configured 0x030960#24)).map (fun b => b.fv) = some true ∧
      (blockAfter (presenting configured 0x040000#24)).map (fun b => b.res16) = some false ∧
      configured.tv = false ∧ configured.tsc = false ∧ configured.idv = false ∧ configured.vk = false ∧
      configured.fv = false ∧ configured.res16 = true := by decide

theorem witness_ResultsDependOnlyOnTheStateRead :
    identified.err = 0x00#8 ∧ unknownVendorBlock.err = 0x00#8 ∧ identified.res16 = unknownVendorBlock.res16 ∧
      identified.idv = unknownVendorBlock.idv ∧ identified ≠ unknownVendorBlock ∧
      Block.reset.idv = configured.idv ∧ Block.reset.idv = false := by decide

theorem witness_SecondDeciRaisesIdentityLocked : identified.err = 0x00#8 ∧ identified.idv = true := by decide

theorem witness_FaultingStepRecordsAndWritesNothingElse :
    identified.err = 0x00#8 ∧
      (∃ t, step (presenting identified 0x02CB00#24) = .next t ∧ t.block.err ≠ 0x00#8) ∧
      (∃ t, step (presenting identified 0x050000#24) = .next t ∧ t.block.err ≠ 0x00#8) :=
  ⟨rfl, ⟨_, rfl, by decide⟩, ⟨_, rfl, by decide⟩⟩

theorem witness_FrozenBlockKeepsEverythingUntilReset :
    (presenting frozenBlock 0x000000#24).block.err ≠ 0x00#8 ∧ NoReset (presenting frozenBlock 0x000000#24).inputs ∧
      ({ block := frozenBlock, inputs := [Pins.reset] } : State).inputs = Pins.reset :: [] :=
  ⟨by decide, noReset_command _, rfl⟩

theorem witness_FrozenBlockDropsEveryCommand : (presenting frozenBlock 0x000000#24).block.err ≠ 0x00#8 := by decide

theorem witness_UnknownVendorIsRaisedWithoutFaultAndStays :
    (configured.err = 0x00#8 ∧ configured.idv = false ∧ (0x5A#8).extractLsb' 3 5 ≠ 0b11001#5) ∧
      unknownVendorBlock.ports.unknownVendor = true ∧
      NoReset (presenting unknownVendorBlock 0x02CB00#24).inputs ∧
      ∃ t, runSteps 1 (presenting unknownVendorBlock 0x02CB00#24) = .next t :=
  ⟨by decide, rfl, noReset_command _, ⟨_, rfl⟩⟩

theorem witness_reset_meets_the_invariant : Block.reset.Inv := by
  constructor <;> simp [Block.reset, Block.frozen]

theorem witness_EveryStepKeepsTheBlockInvariant :
    (presenting Block.reset 0x050000#24).block.Inv ∧ ∃ t, step (presenting Block.reset 0x050000#24) = .next t :=
  ⟨witness_reset_meets_the_invariant, _, rfl⟩

theorem witness_IdentityIsWrittenOnceAndThenConstant :
    (configured.err = 0x00#8 ∧ configured.idv = false) ∧ (identified.err = 0x00#8 ∧ identified.idv = true) ∧
      (∀ id, Instr.nop ≠ .deci id) ∧ (∃ t, exec .nop (presenting identified 0) = .next t) ∧
      NoReset (presenting identified 0x010960#24).inputs ∧
      ∃ t, runSteps 1 (presenting identified 0x010960#24) = .next t :=
  ⟨by decide, by decide, by simp, ⟨_, rfl⟩,
    noReset_command _, ⟨_, rfl⟩⟩

/-- A run with a `CFG` that reports the other mode and a `DECT` meets the hypotheses. -/
theorem witness_NoCelsiusWithoutAModeReport :
    identified.res16 = false ∧ identified.tsc = false ∧
      NoModeReport [Pins.command 0x047F00#24, Pins.command 0x010960#24] ∧
      ∃ t, runSteps 2 { block := identified, inputs := [Pins.command 0x047F00#24, Pins.command 0x010960#24] } =
        .next t := by
  refine ⟨rfl, rfl, ?_, ⟨_, rfl⟩⟩
  intro p hp _ byte hd
  cases hp with
  | head => cases hd; rfl
  | tail _ h =>
    cases h with
    | head => cases hd
    | tail _ h => cases h

/-- The invariant holds of a block whose three results and fault are all present, and of one with none. -/
theorem witness_PortsShowValuesExactlyWhenMeaningful :
    Block.Inv { identified with temp := some 0x0960#16, tv := true, fahr := some 0x05000#20, fv := true,
                                err := 0x02#8, ecmd := some (encode (.deci 0xC8#8)) } ∧
      Block.Inv Block.reset := by
  refine ⟨?_, witness_reset_meets_the_invariant⟩
  constructor
  · rfl
  · rfl
  · rfl
  · rfl
  · rfl
  · intro _; rfl
  · intro _; rfl
  · intro m h; cases h; decide
  · intro f h; cases h; exact ⟨0x0000#16, by decide⟩
  · decide
  · intro w h; exact absurd h (by decide)
  · intro w _ h; cases h; exact ⟨rfl, _, rfl⟩

/-- A live state, and high bytes on both sides of each law's boundary. -/
theorem witness_SignedReadingLaws :
    configured.err = 0x00#8 ∧ (0x80#8).getLsbD 7 = (0xFF#8).getLsbD 7 ∧ (0x00#8).getLsbD 7 = (0x7F#8).getLsbD 7 ∧
      (0x80#8).getLsbD 7 = true ∧ (0x7F#8).getLsbD 7 = false ∧ (-32768 : Int) ≤ 32767 := by decide

theorem witness_SignedReadingIsTheDocumentsFormula : configured.err = 0x00#8 := by decide
theorem witness_CelsiusNeedsTheReportedMode : identified.err = 0x00#8 := by decide
theorem witness_FahrenheitNumeratorIsExact : identified.err = 0x00#8 := by decide

theorem witness_FahrenheitIsNineFifthsPlusThirtyTwo :
    ({ identified with fahr := some 0xBD000#20, fv := true } : Block).fv = true ∧ identified.err = 0x00#8 ∧
      (0x0000#16).toInt = (0xFFFF#16).toInt + 1 := by decide

theorem witness_IdentityFieldsPartitionTheByte : configured.err = 0x00#8 ∧ configured.idv = false := by decide

/-- The four edges of the eight known bytes. -/
theorem witness_VendorIsKnownForExactlyEightBytes :
    configured.err = 0x00#8 ∧ configured.idv = false ∧ mfgField 0xC7#8 = 24#5 ∧ mfgField 0xC8#8 = 25#5 ∧
      mfgField 0xCF#8 = 25#5 ∧ mfgField 0xD0#8 = 26#5 := by decide

theorem witness_FahrenheitCanBeStaleBesideANewSample : configured.err = 0x00#8 := by decide
theorem witness_ScaleFlagBelongsToTheLastDect : configured.err = 0x00#8 := by decide

theorem witness_NewSessionNeedsAReset : NoReset [Pins.command 0x010960#24, Pins.idle] := by
  intro p hp
  cases hp with
  | head => rfl
  | tail _ h =>
    cases h with
    | head => rfl
    | tail _ h => cases h

/-- A connect that fails at each of its three places. -/
theorem witness_FailedConnectPresentsOnlyWhatCameBefore :
    (({ opened := false, id := none, written := false, time := 0 } : ConnectInputs).opened = false) ∧
      (({ opened := true, id := none, written := true, time := 0 } : ConnectInputs).id = none) ∧
      (({ opened := true, id := some 0xCB#8, written := false, time := 0 } : ConnectInputs).written = false) :=
  ⟨rfl, rfl, rfl⟩

theorem witness_PollingLoopRecordsEverySample :
    pollable.phase = .connected ∧ polled.phase = .polling ∧ pollable.machine.block.err = 0x00#8 ∧
      polled.machine.block.err = 0x00#8 ∧
      ∀ q ∈ [((0x09#8, 0x60#8, 0, true, some true) : Byte × Byte × Nat × Bool × Option Bool),
        (0x80#8, 0x00#8, 1, false, none)], q.2.2.2.2 ≠ some false := by decide

theorem witness_FailedReadPresentsNothingAndEndsTheLoop :
    pollable.phase = .connected ∧ polled.phase = .polling ∧ failedMsb.msb = none ∧ failedLsb.lsb = none ∧
      pollable.readBefore = false ∧ retrying.phase = .connected ∧ retrying.readBefore = true := by decide

/-- N16 leaves the state open after a failed first read; "does not change state" (R99) after a second. -/
theorem test_phase_after_failed_reads :
    phaseAfterReadError failedMsb pollable.readBefore pollable.phase = .polling ∧
      phaseAfterReadError failedLsb pollable.readBefore pollable.phase = .connected ∧
      phaseAfterReadError failedMsb retrying.readBefore retrying.phase = .connected := by decide

theorem witness_DisconnectIsIdempotentAndFinal : pollable.phase = .connected ∧ polled.phase = .polling := by decide

/-- Reads that succeed while the publishing does not. -/
def unpublished : ReadInputs := { msb := some 0x09#8, lsb := some 0x60#8, time := 0, convert := true,
                                  publish := some false, failedFirstPolls := false }

theorem witness_PublishErrorAbandonsOnlyThePublishing :
    pollable.phase = .connected ∧ pollable.machine.block.err = 0x00#8 ∧ unpublished.msb = some 0x09#8 ∧
      unpublished.lsb = some 0x60#8 ∧ unpublished.publish = some false := by decide

/-- A session whose block has faulted while it polled. -/
theorem witness_HostUsesNoResultOfAFaultedBlock :
    ({ polled with machine := { block := frozenBlock, inputs := [] } } : Session).phase = .polling ∧
      ({ polled with machine := { block := frozenBlock, inputs := [] } } : Session).machine.block.err ≠ 0x00#8 ∧
      unpublished.msb = some 0x09#8 ∧ unpublished.lsb = some 0x60#8 := by decide

end Sys2Proof.Tests
end

