-- ==== Sys2Proof/Proofs/Scope.lean ====
section
/-! PROOFS. The statements of 00_scope.md: the step is total (R6) and runs the command the host presents (R6, R19, R22). -/

namespace Sys2Proof.Machine

/-! ## What one step does -/

/-- The step answers a next state whose list of presentations is one shorter, or still empty. -/
theorem step_next (s : State) : ∃ b, step s = .next { block := b, inputs := s.inputs.tail } := by
  cases hs : s.inputs with
  | nil => exact ⟨s.block, by rw [step_no_input hs, List.tail_nil, ← hs]⟩
  | cons p rest =>
    obtain ⟨b, hb⟩ := performPins_next p { s with inputs := rest }
    exact ⟨b, (step_input hs).trans hb⟩

/-- The idle step (R6): with nothing presented, only the list moves on. -/
theorem step_idle {s : State} (h : ∀ p, s.inputs.head? = some p → p.rst = false ∧ p.cmdValid = false) :
    step s = .next { s with inputs := s.inputs.tail } := by
  cases hs : s.inputs with
  | nil => rw [step_no_input hs, List.tail_nil, ← hs]
  | cons p rest =>
    obtain ⟨hr, hv⟩ := h p (by rw [hs, List.head?_cons])
    rw [step_input hs, performPins_idle _ hr hv, List.tail_cons]

/-- The command step of a legal word (R87 (5)) is the meaning of its command. -/
theorem performWord_command {w : CmdWord} {i : Instr} (s : State) (h : decodeWord w = .command i) :
    performWord w s = exec i s := by
  simp only [performWord, h]

/-- The step with a legal command presented runs that command on the rest of the list. -/
theorem step_command {s : State} {p : Pins} {rest : List Pins} {i : Instr} (hs : s.inputs = p :: rest)
    (hr : p.rst = false) (hv : p.cmdValid = true) (hd : decodeWord p.cmd = .command i) :
    step s = exec i { s with inputs := rest } := by
  rw [step_input hs, performPins_command _ hr hv, performWord_command _ hd]

/-! ## The table's numbering and the word presented next -/

theorem decoded_instr?_eq_some_iff {d : Decoded} {i : Instr} : d.instr? = some i ↔ d = .command i := by
  cases d <;> simp [Decoded.instr?]

theorem decodeTableWord_eq_some_iff {nbits w : Nat} {i : Instr} :
    decodeTableWord nbits w = some i ↔ decodeWord (tableWord nbits w) = .command i :=
  decoded_instr?_eq_some_iff

@[simp] theorem State.withFetchWord_inputs (s : State) (nbits w : Nat) :
    (s.withFetchWord nbits w).inputs = Pins.command (tableWord nbits w) :: s.inputs := rfl

/-- Taking the word presented next off the list again gives the state it was presented to. -/
@[simp] theorem State.withFetchWord_taken (s : State) (nbits w : Nat) :
    { s.withFetchWord nbits w with inputs := s.inputs } = s := rfl

/-- The step after `withFetchWord` runs the command the table's numbering decodes to. -/
theorem step_withFetchWord {nbits w : Nat} {i : Instr} (s : State) (h : decodeTableWord nbits w = some i) :
    step (s.withFetchWord nbits w) = exec i s := by
  rw [step_command (s.withFetchWord_inputs nbits w) (Pins.command_rst _) (Pins.command_cmdValid _)
    (decodeTableWord_eq_some_iff.mp h), State.withFetchWord_taken]

/-! ## The obligations -/

/-- Settles O10: the next state of `step_next`; where nothing is presented it is the one `step_idle` gives. -/
theorem everyStepHasANextState : Obligations.EveryStepHasANextState := by
  unfold Obligations.EveryStepHasANextState
  intro s
  obtain ⟨b, hb⟩ := step_next s
  refine ⟨_, hb, rfl, fun idle => ?_⟩
  cases hb.symm.trans (step_idle idle)
  rfl

/-- Settles O8: `step_command` on the list as the host left it, `step_withFetchWord` on the table's numbering. -/
theorem stepRunsThePresentedCommand : Obligations.StepRunsThePresentedCommand := by
  unfold Obligations.StepRunsThePresentedCommand
  exact ⟨fun _ _ _ _ hs hr hv hd => step_command hs hr hv hd, fun s _ _ h => step_withFetchWord s h⟩

end Sys2Proof.Machine
end

section
/-! PROOFS. The statements of 10_state.md: what a command writes and reads, the flags, the views and ports, and the laws
that every step keeps (R10 to R28). -/

namespace Sys2Proof

/-! ## The word of a command -/

/-- Each command's fields meet the test R45's list has for it, and none before. -/
theorem decodeFields_encodeFields (i : Instr) : decodeFields (encodeFields i) = .command i := by
  cases i <;> simp [encodeFields, decodeFields]

@[simp] theorem decodeWord_encode (i : Instr) : decodeWord (encode i) = .command i := by
  rw [decodeWord, fieldsOf_encode, decodeFields_encodeFields]

theorem decodeWord_illegal_not_wellFormed {w : CmdWord} {why : IllegalReason} (h : decodeWord w = .illegal why) :
    (fieldsOf w).wellFormed = false :=
  (decodeFields_illegal_iff _).mp ⟨why, h⟩

end Sys2Proof

namespace Sys2Proof.Machine

/-! ## What one command does to the block -/

/-- A command on a live block takes its effect. -/
theorem exec_live (i : Instr) {s : State} (h : s.block.err = 0x00#8) :
    exec i s = .next { s with block := effectOf i s.block } := by
  rw [exec_eq_commit, commit_live _ h]

/-- A command that answers `t` took its effect, on a live block, or was dropped by a frozen one. -/
theorem exec_next_cases {i : Instr} {s t : State} (h : exec i s = .next t) :
    t = s ∨ (s.block.err = 0x00#8 ∧ t = { s with block := effectOf i s.block }) := by
  rw [exec_eq_commit] at h
  rcases commit_cases h with ⟨-, ht⟩ | ⟨live, ht⟩
  · cases ht
    exact .inl rfl
  · cases ht
    exact .inr ⟨live, rfl⟩

/-- Presenting a command's word to a live block gives the command's effect. -/
theorem performPins_encode (i : Instr) {s : State} (h : s.block.err = 0x00#8) :
    performPins (Pins.command (encode i)) s = .next { s with block := effectOf i s.block } := by
  rw [performPins_command s (Pins.command_rst _) (Pins.command_cmdValid _), Pins.command_cmd,
    performWord_command s (decodeWord_encode i), exec_live i h]

/-- `DECI`, whether it decodes or faults, leaves the sample, the conversion and the report alone. -/
theorem identify_frame (id : Byte) (b : Block) :
    (identify id b).temp = b.temp ∧ (identify id b).tv = b.tv ∧ (identify id b).tsc = b.tsc ∧
      (identify id b).fahr = b.fahr ∧ (identify id b).fv = b.fv ∧ (identify id b).res16 = b.res16 := by
  rcases identify_cases id b with ⟨-, h⟩ | ⟨-, h⟩ <;> simp [h]

/-- Only `DECT` writes `TEMP`, `TV` and `TSC` (R55, R62). -/
theorem effectOf_temp_cases (i : Instr) (b : Block) :
    (∃ msb lsb, i = .dect msb lsb) ∨
      ((effectOf i b).temp = b.temp ∧ (effectOf i b).tv = b.tv ∧ (effectOf i b).tsc = b.tsc) := by
  cases i with
  | nop => exact .inr ⟨rfl, rfl, rfl⟩
  | dect msb lsb => exact .inl ⟨msb, lsb, rfl⟩
  | deci id =>
    obtain ⟨htemp, htv, htsc, -⟩ := identify_frame id b
    exact .inr ⟨htemp, htv, htsc⟩
  | cvtf hi lo => exact .inr ⟨rfl, rfl, rfl⟩
  | cfg byte => exact .inr ⟨rfl, rfl, rfl⟩

/-- Only `CVTF` writes `FAHR` and `FV` (R70, R74). -/
theorem effectOf_fahr_cases (i : Instr) (b : Block) :
    (∃ hi lo, i = .cvtf hi lo) ∨ ((effectOf i b).fahr = b.fahr ∧ (effectOf i b).fv = b.fv) := by
  cases i with
  | nop => exact .inr ⟨rfl, rfl⟩
  | dect msb lsb => exact .inr ⟨rfl, rfl⟩
  | deci id =>
    obtain ⟨-, -, -, hfahr, hfv, -⟩ := identify_frame id b
    exact .inr ⟨hfahr, hfv⟩
  | cvtf hi lo => exact .inl ⟨hi, lo, rfl⟩
  | cfg byte => exact .inr ⟨rfl, rfl⟩

/-- Only `CFG` writes `RES16` (R76). -/
theorem effectOf_res16_cases (i : Instr) (b : Block) :
    (∃ byte, i = .cfg byte) ∨ (effectOf i b).res16 = b.res16 := by
  cases i with
  | nop => exact .inr rfl
  | dect msb lsb => exact .inr rfl
  | deci id =>
    obtain ⟨-, -, -, -, -, hres⟩ := identify_frame id b
    exact .inr hres
  | cvtf hi lo => exact .inr rfl
  | cfg byte => exact .inl ⟨byte, rfl⟩

/-- Only `DECI` writes the identity, and only it can fault (R63, R69, R88). -/
theorem effectOf_identity_cases (i : Instr) (b : Block) :
    (∃ id, i = .deci id) ∨
      ((effectOf i b).err = b.err ∧ (effectOf i b).ecmd = b.ecmd ∧ (effectOf i b).mfg = b.mfg ∧
        (effectOf i b).rev = b.rev ∧ (effectOf i b).vk = b.vk ∧ (effectOf i b).idv = b.idv) := by
  cases i with
  | nop => exact .inr ⟨rfl, rfl, rfl, rfl, rfl, rfl⟩
  | dect msb lsb => exact .inr ⟨rfl, rfl, rfl, rfl, rfl, rfl⟩
  | deci id => exact .inl ⟨id, rfl⟩
  | cvtf hi lo => exact .inr ⟨rfl, rfl, rfl, rfl, rfl, rfl⟩
  | cfg byte => exact .inr ⟨rfl, rfl, rfl, rfl, rfl, rfl⟩

/-- `DECI` leaves `ERR` and `ECMD` alone, or it faults and leaves the identity alone. -/
theorem identify_fault_or_write (id : Byte) (b : Block) :
    ((identify id b).err = b.err ∧ (identify id b).ecmd = b.ecmd) ∨
      (b.idv = true ∧ (identify id b).mfg = b.mfg ∧ (identify id b).rev = b.rev ∧ (identify id b).vk = b.vk ∧
        (identify id b).idv = b.idv) := by
  rcases identify_cases id b with ⟨hidv, h⟩ | ⟨-, h⟩
  · exact .inr (by simp [h, hidv])
  · exact .inl (by simp [h])

/-! ## What a step without `rst` does to the flags -/

/-- The six flags of R23 are as they were. -/
def Block.SameFlags (b c : Block) : Prop :=
  c.tv = b.tv ∧ c.tsc = b.tsc ∧ c.idv = b.idv ∧ c.vk = b.vk ∧ c.fv = b.fv ∧ c.res16 = b.res16

/-- A presentation without `rst` keeps all flags, or is the effect of a legal word on a live block. -/
theorem performPins_flags_cases {p : Pins} {s t : State} (hr : p.rst = false) (h : performPins p s = .next t) :
    s.block.SameFlags t.block ∨
      (s.block.err = 0x00#8 ∧ ∃ i, p.cmd = encode i ∧ t.block = effectOf i s.block) := by
  rcases performPins_cases p s with
    ⟨hr', -⟩ | ⟨-, -, ht⟩ | ⟨-, -, -, ht⟩ | ⟨-, -, -, -, ht⟩ | ⟨-, -, live, i, -, hw, ht⟩
  · exact absurd hr' (by simp [hr])
  all_goals cases ht.symm.trans h
  · exact .inl ⟨rfl, rfl, rfl, rfl, rfl, rfl⟩
  · exact .inl ⟨rfl, rfl, rfl, rfl, rfl, rfl⟩
  · exact .inl ⟨rfl, rfl, rfl, rfl, rfl, rfl⟩
  · exact .inr ⟨live, i, hw, rfl⟩

/-- The vendor match over R4's table is the comparison with its one code (R65). -/
theorem vendorKnown_iff (m : MfgCode) : vendorKnown Config.knownVendorCodes m = true ↔ m = 0b11001#5 := by
  simp [vendorKnown, Config.knownVendorCodes]

/-- A `DECI` that changes `VK` or `IDV` found no identity, and wrote the vendor match of its byte. -/
theorem identify_writes {id : Byte} {b : Block}
    (h : (identify id b).idv ≠ b.idv ∨ (identify id b).vk ≠ b.vk) :
    b.idv = false ∧ (identify id b).idv = true ∧
      ((identify id b).vk = true ↔ id.extractLsb' 3 5 = 0b11001#5) := by
  rcases identify_cases id b with ⟨-, hb⟩ | ⟨hidv, hb⟩
  · simp [hb] at h
  · refine ⟨hidv, by simp [hb], ?_⟩
    rw [hb, Block.writeIdentity_vk, vendorKnown_iff, mfgField]

/-! ## Views and ports -/

/-- A port under the flag that says its element holds a value shows that value. -/
theorem shownWhen_of_valid {α : Type} {flag : Bool} {v : Option α} (valid : flag = v.isSome) (h : flag = true) :
    ∃ x, v = some x ∧ shownWhen flag v = some x := by
  obtain ⟨x, hx⟩ := Option.isSome_iff_exists.mp (valid.symm.trans h)
  exact ⟨x, hx, by rw [h, hx]; rfl⟩

theorem shownWhen_of_false {α : Type} {flag : Bool} (v : Option α) (h : flag = false) : shownWhen flag v = none := by
  rw [h]; rfl

theorem shownWhen_of_true {α : Type} {flag : Bool} (v : Option α) (h : flag = true) : shownWhen flag v = v := by
  rw [h]; rfl

/-! ## The laws of the block's state -/

/-- The numerator of a 16-bit code fits in 20 signed bits, so `trunc_20` loses nothing (R72). -/
theorem fahrCode_toInt (c : TempCode) : (fahrCode c).toInt = 9 * c.toInt + 20480 := by
  have lower : -32768 ≤ c.toInt := by simpa using c.le_toInt
  have upper : c.toInt < 32768 := by simpa using c.toInt_lt
  simp only [fahrCode, fahrNumerator, Config.fahrMul, Config.fahrNumeratorOffset, BitVec.toInt_ofInt]
  rw [Int.bmod_eq_of_le] <;> omega

theorem Block.Inv.reset : Block.reset.Inv := by
  constructor <;> simp [Block.frozen]

theorem Block.Inv.writeTemp {b : Block} (h : b.Inv) (c : TempCode) : (b.writeTemp c).Inv :=
  { h with
    temp_valid := rfl
    tsc_needs_sample := fun _ => rfl }

/-- The vendor flag a `DECI` writes is the match against the table, as R14 and R65 ask. -/
theorem Block.Inv.writeIdentity {b : Block} (h : b.Inv) (m : MfgCode) (r : RevCode) :
    (b.writeIdentity m r (vendorKnown Config.knownVendorCodes m)).Inv :=
  { h with
    mfg_valid := rfl
    rev_valid := rfl
    vk_needs_identity := fun _ => rfl
    vk_matches := fun _ hm => by cases hm; exact List.contains_iff_mem
    locked_recorded := fun w herr hw => ⟨rfl, (h.locked_recorded w herr hw).2⟩ }

theorem Block.Inv.writeFahr {b : Block} (h : b.Inv) (c : TempCode) : (b.writeFahr (fahrCode c)).Inv :=
  { h with
    fahr_valid := rfl
    fahr_reachable := fun _ hf => by cases hf; exact ⟨c, fahrCode_toInt c⟩ }

theorem Block.Inv.writeRes16 {b : Block} (h : b.Inv) (v : Bool) : (b.writeRes16 v).Inv := { h with }

theorem faultCode_injective : Function.Injective faultCode := by
  intro c d h
  cases c <;> cases d <;> simp [faultCode] at h ⊢

/-- A fault keeps the laws when the word it records is one its cause can have (R83). -/
theorem Block.Inv.raiseFault {b : Block} (h : b.Inv) {cause : FaultCause} {w : CmdWord}
    (illegal : cause = .illegalCommand → (fieldsOf w).wellFormed = false)
    (locked : cause = .identityLocked → b.idv = true ∧ ∃ id, w = encode (.deci id)) :
    (Machine.raiseFault cause w b).Inv :=
  { h with
    ecmd_valid := by cases cause <;> rfl
    err_legal := by cases cause <;> simp [faultCode]
    illegal_recorded := fun _ herr hv => by cases hv; exact illegal (faultCode_injective herr)
    locked_recorded := fun _ herr hv => by cases hv; exact locked (faultCode_injective herr) }

theorem Block.Inv.identify {b : Block} (h : b.Inv) (id : Byte) : (Machine.identify id b).Inv := by
  rcases identify_cases id b with ⟨hidv, hb⟩ | ⟨-, hb⟩ <;> rw [hb]
  · exact h.raiseFault nofun fun _ => ⟨hidv, id, rfl⟩
  · exact h.writeIdentity _ _

/-- Every command's effect keeps the laws. -/
theorem Block.Inv.effectOf {b : Block} (h : b.Inv) (i : Instr) : (Machine.effectOf i b).Inv := by
  cases i with
  | nop => exact h
  | dect msb lsb => exact h.writeTemp _
  | deci id => exact h.identify id
  | cvtf hi lo => exact h.writeFahr _
  | cfg byte => exact h.writeRes16 _

/-- Every presentation keeps the laws. -/
theorem performPins_keeps_inv {p : Pins} {s t : State} (hs : s.block.Inv) (h : performPins p s = .next t) :
    t.block.Inv := by
  rcases performPins_cases p s with
    ⟨-, ht⟩ | ⟨-, -, ht⟩ | ⟨-, -, -, ht⟩ | ⟨-, -, -, ⟨why, hd⟩, ht⟩ | ⟨-, -, -, i, -, -, ht⟩
  all_goals cases ht.symm.trans h
  · exact .reset
  · exact hs
  · exact hs
  · exact hs.raiseFault (fun _ => decodeWord_illegal_not_wellFormed hd) nofun
  · exact hs.effectOf i

/-! ## Presentations one after the other -/

theorem presentAll_cons_of_next {p : Pins} {s t : State} (ps : List Pins) (h : performPins p s = .next t) :
    presentAll (p :: ps) s = presentAll ps t := by
  simp only [presentAll, h]

/-- A command first in the list, presented to a live block, takes its effect, and the rest follows. -/
theorem presentAll_encode_cons (i : Instr) (ps : List Pins) {s : State} (h : s.block.err = 0x00#8) :
    presentAll (Pins.command (encode i) :: ps) s = presentAll ps { s with block := effectOf i s.block } :=
  presentAll_cons_of_next ps (performPins_encode i h)

/-! ## The obligations -/

/-- Settles O27: the empty list changes nothing, and a presentation keeps the laws by `performPins_keeps_inv`. -/
theorem everyStepKeepsTheBlockInvariant : Obligations.EveryStepKeepsTheBlockInvariant := by
  unfold Obligations.EveryStepKeepsTheBlockInvariant
  intro s t hs h
  cases hi : s.inputs with
  | nil =>
    cases (step_no_input hi).symm.trans h
    exact hs
  | cons p rest => exact performPins_keeps_inv (s := { s with inputs := rest }) hs ((step_input hi).symm.trans h)

/-- Settles O28. -/
theorem resetMeetsTheBlockInvariant : Obligations.ResetMeetsTheBlockInvariant := by
  unfold Obligations.ResetMeetsTheBlockInvariant
  exact .reset

/-- Settles O19: a dropped command changes nothing; the effect of one that is performed stays within the elements of its
row of R10. -/
theorem commandsChangeOnlyTheirOwnElements : Obligations.CommandsChangeOnlyTheirOwnElements := by
  unfold Obligations.CommandsChangeOnlyTheirOwnElements
  intro i s t h
  rcases exec_next_cases h with rfl | ⟨-, rfl⟩
  · simp
  · refine ⟨rfl, fun hi => ?_, fun hi => ?_, fun hi => ?_, fun hi => ?_, ?_⟩
    · exact (effectOf_identity_cases i s.block).resolve_left fun ⟨id, e⟩ => hi id e
    · exact (effectOf_temp_cases i s.block).resolve_left fun ⟨m, l, e⟩ => hi m l e
    · exact (effectOf_fahr_cases i s.block).resolve_left fun ⟨m, l, e⟩ => hi m l e
    · exact (effectOf_res16_cases i s.block).resolve_left fun ⟨c, e⟩ => hi c e
    · rintro id rfl
      exact identify_fault_or_write id s.block

/-- Settles O20: where a step without `rst` changes a flag, a legal word was performed on a live block, and the frame of the
commands says whose word it was. -/
theorem flagsChangeOnlyByTheirCommand : Obligations.FlagsChangeOnlyByTheirCommand := by
  unfold Obligations.FlagsChangeOnlyByTheirCommand
  intro s t p rest hi hr h
  rw [step_input hi] at h
  rcases performPins_flags_cases hr h with ⟨htv, htsc, hidv, hvk, hfv, hres⟩ | ⟨live, i, hw, ht⟩
  · exact ⟨absurd htv, absurd htsc, absurd hidv, absurd hvk, absurd hfv, absurd hres⟩
  rw [hw, ht]
  refine ⟨fun hne => ?_, fun hne => ?_, fun hne => ?_, fun hne => ?_, fun hne => ?_, fun hne => ?_⟩
  · obtain ⟨m, l, rfl⟩ := (effectOf_temp_cases i s.block).resolve_right fun ⟨_, e, _⟩ => hne e
    exact ⟨rfl, live, m, l, rfl⟩
  · obtain ⟨m, l, rfl⟩ := (effectOf_temp_cases i s.block).resolve_right fun ⟨_, _, e⟩ => hne e
    exact ⟨rfl, live, m, l, rfl⟩
  · obtain ⟨id, rfl⟩ := (effectOf_identity_cases i s.block).resolve_right fun ⟨_, _, _, _, _, e⟩ => hne e
    obtain ⟨-, hset, -⟩ := identify_writes (.inl hne)
    exact ⟨hset, live, id, rfl⟩
  · obtain ⟨id, rfl⟩ := (effectOf_identity_cases i s.block).resolve_right fun ⟨_, _, _, _, e, _⟩ => hne e
    obtain ⟨hclear, -, hknown⟩ := identify_writes (.inr hne)
    exact ⟨hclear, live, id, rfl, hknown⟩
  · obtain ⟨m, l, rfl⟩ := (effectOf_fahr_cases i s.block).resolve_right fun ⟨_, e⟩ => hne e
    exact ⟨rfl, live, m, l, rfl⟩
  · obtain ⟨c, rfl⟩ := (effectOf_res16_cases i s.block).resolve_right hne
    exact ⟨live, c, rfl, rfl⟩

/-- Settles O21: on a live block the written values are terms of the operand bytes and the one element read; `DECI` takes the
same branch of `identify_cases` on both states. -/
theorem resultsDependOnlyOnTheStateRead : Obligations.ResultsDependOnlyOnTheStateRead := by
  unfold Obligations.ResultsDependOnlyOnTheStateRead
  intro s t hs ht
  refine ⟨fun hi lo => ?_, fun c => ?_, fun msb lsb hres => ?_, fun id hidv => ?_⟩
  · exact ⟨_, _, exec_live _ hs, exec_live _ ht, rfl, rfl⟩
  · exact ⟨_, _, exec_live _ hs, exec_live _ ht, rfl⟩
  · exact ⟨_, _, exec_live _ hs, exec_live _ ht, rfl, rfl, hres⟩
  · refine ⟨_, _, exec_live _ hs, exec_live _ ht, ?_⟩
    rcases identify_cases id s.block with ⟨hs', es⟩ | ⟨hs', es⟩ <;>
      rcases identify_cases id t.block with ⟨ht', et⟩ | ⟨ht', et⟩
    · simp [effectOf, es, et, hs', ht']
    · simp [hs', ht'] at hidv
    · simp [hs', ht'] at hidv
    · simp [effectOf, es, et, hs', hs, ht]

/-- Settles O31: by the laws of the block a flag is set exactly when the element under it holds a value. -/
theorem portsShowValuesExactlyWhenMeaningful : Obligations.PortsShowValuesExactlyWhenMeaningful := by
  unfold Obligations.PortsShowValuesExactlyWhenMeaningful
  intro b h
  refine ⟨fun hv => ?_, fun hv => ?_, fun hv => ?_, fun hv => ?_, fun hv => ?_, fun hv => ?_, fun hv => ?_,
    fun hv => ?_, rfl, rfl, rfl, rfl, rfl, rfl, rfl⟩
  · obtain ⟨c, hc, hport⟩ := shownWhen_of_valid h.temp_valid hv
    exact ⟨c, hc, hport, shownWhen_of_true _ hv⟩
  · exact ⟨shownWhen_of_false _ hv, shownWhen_of_false _ hv⟩
  · obtain ⟨m, hm, mport⟩ := shownWhen_of_valid h.mfg_valid hv
    obtain ⟨r, hr, rport⟩ := shownWhen_of_valid h.rev_valid hv
    exact ⟨m, r, hm, hr, mport, rport, shownWhen_of_true _ hv⟩
  · exact ⟨shownWhen_of_false _ hv, shownWhen_of_false _ hv, shownWhen_of_false _ hv⟩
  · exact shownWhen_of_valid h.fahr_valid hv
  · exact shownWhen_of_false _ hv
  · exact shownWhen_of_valid h.ecmd_valid (b.frozen_iff.mpr hv)
  · exact shownWhen_of_false _ (b.not_frozen_iff.mpr hv)

/-- Settles O32: each bit of the concatenation is the flag that stands at its place. -/
theorem statusViewHasItsEightBits : Obligations.StatusViewHasItsEightBits := by
  unfold Obligations.StatusViewHasItsEightBits
  intro b
  simp only [Block.stat, BitVec.getLsbD_append, BitVec.getLsbD_ofBool]
  simp [Block.unknownVendor, Block.flt, bne, beq_eq_decide]

/-- Settles O42: `CFG` keeps the `TSC` that the `DECT` before it took from `RES16`, and the `DECT` after it takes the bit
`CFG` wrote; the block stays live throughout. -/
theorem scaleFlagBelongsToTheLastDect : Obligations.ScaleFlagBelongsToTheLastDect := by
  unfold Obligations.ScaleFlagBelongsToTheLastDect
  intro s m1 l1 m2 l2 c live
  have first := (presentAll_encode_cons (.dect m1 l1) [Pins.command (encode (.cfg c))] live).trans
    (presentAll_encode_cons (.cfg c) [] live)
  have second := presentAll_encode_cons (.dect m2 l2) []
    (s := { s with block := effectOf (.cfg c) (effectOf (.dect m1 l1) s.block) }) live
  exact ⟨_, _, first, rfl, rfl, second, rfl⟩

end Sys2Proof.Machine
end

section
/-! PROOFS. The statement of 20_memory.md: a run takes the presentations in their order, each complete before the next. -/

namespace Sys2Proof.Machine

/-! ## A presentation does not see what is presented after it -/

/-- A command step is one effect, committed, whichever state it is taken in: a legal word's own, or the fault of an illegal
one. -/
theorem performWord_eq_commit (w : CmdWord) : ∃ effect, ∀ s, performWord w s = commit effect s := by
  cases hd : decodeWord w with
  | command i => exact ⟨effectOf i, fun s => by rw [performWord_command s hd, exec_eq_commit]⟩
  | illegal why => exact ⟨raiseFault .illegalCommand w, fun s => by simp only [performWord, hd]⟩

/-- The block after a presentation is the same whatever list stands behind it. -/
theorem performPins_next_of_any_inputs (p : Pins) (b : Block) :
    ∃ c, ∀ l, performPins p { block := b, inputs := l } = .next { block := c, inputs := l } := by
  cases hr : p.rst with
  | true => exact ⟨Block.reset, fun _ => performPins_reset _ hr⟩
  | false =>
    cases hv : p.cmdValid with
    | false => exact ⟨b, fun _ => performPins_idle _ hr hv⟩
    | true =>
      obtain ⟨effect, heffect⟩ := performWord_eq_commit p.cmd
      by_cases live : b.err = 0x00#8
      · exact ⟨effect b, fun _ => by rw [performPins_command _ hr hv, heffect, commit_live _ live]⟩
      · exact ⟨b, fun _ => by rw [performPins_command _ hr hv, heffect, commit_frozen _ live]⟩

/-! ## The obligation -/

/-- Settles O12: by induction on the presentations; the first step performs the first of them, and both sides go on from the
one block it leaves, by `performPins_next_of_any_inputs`. -/
theorem runIsPresentationInOrder : Obligations.RunIsPresentationInOrder := by
  unfold Obligations.RunIsPresentationInOrder
  intro ps rest
  induction ps with
  | nil => exact fun _ => rfl
  | cons p ps ih =>
    intro b
    obtain ⟨c, hc⟩ := performPins_next_of_any_inputs p b
    rw [List.length_cons, runSteps_succ_of_next ((step_input rfl).trans (hc (ps ++ rest))),
      presentAll_cons_of_next ps (hc rest)]
    exact ih c

end Sys2Proof.Machine
end

section
/-! PROOFS. The statements of 30_encoding.md: the decoder and the encoder undo each other, the illegal words and their fault,
the opcode map, the pseudo-commands, and `NOP` as the one command without effect (R40 to R51). -/

namespace Sys2Proof

/-! ## Words and commands -/

theorem fieldsOf_inj {v w : CmdWord} : fieldsOf v = fieldsOf w ↔ v = w := ⟨fieldsOf_injective, congrArg fieldsOf⟩

/-- A word is a command's word exactly when its fields are that command's. -/
theorem encode_eq_iff {i : Instr} {w : CmdWord} : encode i = w ↔ fieldsOf w = encodeFields i := by
  rw [← fieldsOf_inj, fieldsOf_encode, eq_comm]

/-- The decoder answers a command exactly on that command's word: the two directions of the round trip in one. -/
theorem decodeWord_eq_command_iff {w : CmdWord} {i : Instr} : decodeWord w = .command i ↔ encode i = w := by
  constructor
  · intro h
    rcases decodeFields_cases (fieldsOf w) with ⟨j, hj, hfields⟩ | ⟨why, hwhy⟩
    · cases hj.symm.trans h
      exact encode_eq_iff.mpr hfields
    · cases hwhy.symm.trans h
  · rintro rfl
    exact decodeWord_encode i

theorem encode_injective : Function.Injective encode := by
  intro i j h
  cases (decodeWord_encode i).symm.trans (decodeWord_eq_command_iff.mpr h.symm)
  rfl

/-- The three bytes of a command, read with any bytes after them, are that command and those bytes (R49). -/
theorem decodeBytes_encodeBytes_append (i : Instr) (rest : List Byte) :
    decodeBytes (encodeBytes i ++ rest) = .command i rest := by
  have hword : decodeWord (wordOf (fieldsOf (encode i))) = .command i := by
    rw [wordOf_fieldsOf, decodeWord_encode]
  simp only [encodeBytes, bytesOfWord, List.cons_append, List.nil_append, decodeBytes_cons3, hword]

/-! ## Illegal words -/

/-- The codes R44's map leaves out are 0x05 to 0xFF. -/
theorem formOfOpc_eq_none_iff (o : Byte) : formOfOpc o = none ↔ 0x05 ≤ o.toNat := by
  revert o
  decide

theorem formOfOpc_eq_z_iff (o : Byte) : formOfOpc o = some .z ↔ o = 0x00#8 := by
  revert o
  decide

theorem formOfOpc_eq_b_iff (o : Byte) : formOfOpc o = some .b ↔ o = 0x02#8 ∨ o = 0x04#8 := by
  revert o
  decide

/-- The check of WellFormed.lean fails for an unknown code, and for an operand byte the form does not use and that is not
0x00: R46's cases, by form. -/
theorem Fields.wellFormed_eq_false_iff (f : Fields) :
    f.wellFormed = false ↔
      formOfOpc f.opc = none ∨ (formOfOpc f.opc = some .z ∧ (f.a ≠ 0x00#8 ∨ f.b ≠ 0x00#8)) ∨
        (formOfOpc f.opc = some .b ∧ f.b ≠ 0x00#8) := by
  simp only [Fields.wellFormed, Fields.opcKnown, Fields.aAllowed, Fields.bAllowed]
  cases formOfOpc f.opc with
  | none => simp
  | some form => cases form <;> simp [imp_iff_not_or]

theorem decoded_illegal_iff_not_command (d : Decoded) : (∃ why, d = .illegal why) ↔ ¬ ∃ i, d = .command i := by
  cases d <;> simp

/-! ## Counting words -/

/-- The operand bytes of the five commands, row by row of R44's map. -/
abbrev Operands := Unit ⊕ (Byte × Byte) ⊕ Byte ⊕ (Byte × Byte) ⊕ Byte

/-- A command is its row of R44's map and its operand bytes. -/
def instrEquivOperands : Instr ≃ Operands where
  toFun
    | .nop => .inl ()
    | .dect msb lsb => .inr (.inl (msb, lsb))
    | .deci id => .inr (.inr (.inl id))
    | .cvtf hi lo => .inr (.inr (.inr (.inl (hi, lo))))
    | .cfg byte => .inr (.inr (.inr (.inr byte)))
  invFun
    | .inl () => .nop
    | .inr (.inl (msb, lsb)) => .dect msb lsb
    | .inr (.inr (.inl id)) => .deci id
    | .inr (.inr (.inr (.inl (hi, lo)))) => .cvtf hi lo
    | .inr (.inr (.inr (.inr byte))) => .cfg byte
  left_inv i := by cases i <;> rfl
  right_inv o := by rcases o with _ | _ | _ | _ | _ <;> rfl

theorem card_bitVec (n : Nat) : Nat.card (BitVec n) = 2 ^ n :=
  (Nat.card_congr BitVec.equivFin.toEquiv).trans (Nat.card_fin _)

theorem card_instr : Nat.card Instr = 131585 := by
  rw [Nat.card_congr instrEquivOperands]
  simp only [Operands, Nat.card_sum, Nat.card_prod, Nat.card_unique, card_bitVec]
  norm_num

/-- There are as many legal words as commands: `encode` is injective, and its words are the legal ones. -/
theorem card_legal_words : Nat.card { w : CmdWord // ∃ i, decodeWord w = .command i } = 131585 := by
  rw [← card_instr, ← Nat.card_range_of_injective encode_injective]
  exact Nat.card_congr (Equiv.subtypeEquivRight fun _ => exists_congr fun _ => decodeWord_eq_command_iff)

/-- The illegal words are all the others. -/
theorem card_illegal_words : Nat.card { w : CmdWord // ∃ why, decodeWord w = .illegal why } = 16645631 := by
  classical
  have total := Nat.card_congr (Equiv.sumCompl fun w : CmdWord => ∃ i, decodeWord w = .command i)
  rw [Nat.card_sum, card_legal_words, card_bitVec] at total
  rw [Nat.card_congr (Equiv.subtypeEquivRight fun w => decoded_illegal_iff_not_command (decodeWord w))]
  omega

/-! ## The opcode map -/

theorem fieldsOf_and (w m : CmdWord) :
    fieldsOf (w &&& m) = { opc := (fieldsOf w).opc &&& (fieldsOf m).opc, a := (fieldsOf w).a &&& (fieldsOf m).a,
                           b := (fieldsOf w).b &&& (fieldsOf m).b } := by
  simp only [fieldsOf, BitVec.extractLsb'_and]

/-- Masking a word is masking its fields. -/
theorem and_eq_wordOf_iff (w m : CmdWord) (p : Fields) :
    w &&& m = wordOf p ↔ (fieldsOf w).opc &&& (fieldsOf m).opc = p.opc ∧
      (fieldsOf w).a &&& (fieldsOf m).a = p.a ∧ (fieldsOf w).b &&& (fieldsOf m).b = p.b := by
  obtain ⟨o, a, b⟩ := p
  rw [← fieldsOf_inj, fieldsOf_and, fieldsOf_wordOf, Fields.mk.injEq]

theorem byte_and_allOnes (x : Byte) : x &&& 0xFF#8 = x := BitVec.and_allOnes

/-- A row of form Z selects one word (R42). -/
theorem formZ_mask_iff (w : CmdWord) (o : Byte) :
    w &&& 0xFFFFFF#24 = wordOf ⟨o, 0x00#8, 0x00#8⟩ ↔ fieldsOf w = ⟨o, 0x00#8, 0x00#8⟩ := by
  have hm : fieldsOf 0xFFFFFF#24 = ⟨0xFF#8, 0xFF#8, 0xFF#8⟩ := rfl
  rw [and_eq_wordOf_iff, hm]
  obtain ⟨o', a, b⟩ := fieldsOf w
  simp [byte_and_allOnes]

/-- A row of form B selects the words of its code whose `b` is 0x00 (R42). -/
theorem formB_mask_iff (w : CmdWord) (o : Byte) :
    w &&& 0xFF00FF#24 = wordOf ⟨o, 0x00#8, 0x00#8⟩ ↔ ∃ a, fieldsOf w = ⟨o, a, 0x00#8⟩ := by
  have hm : fieldsOf 0xFF00FF#24 = ⟨0xFF#8, 0x00#8, 0xFF#8⟩ := rfl
  rw [and_eq_wordOf_iff, hm]
  obtain ⟨o', a, b⟩ := fieldsOf w
  simp [byte_and_allOnes]

/-- A row of form H selects the words of its code (R42). -/
theorem formH_mask_iff (w : CmdWord) (o : Byte) :
    w &&& 0xFF0000#24 = wordOf ⟨o, 0x00#8, 0x00#8⟩ ↔ ∃ a b, fieldsOf w = ⟨o, a, b⟩ := by
  have hm : fieldsOf 0xFF0000#24 = ⟨0xFF#8, 0x00#8, 0x00#8⟩ := rfl
  rw [and_eq_wordOf_iff, hm]
  obtain ⟨o', a, b⟩ := fieldsOf w
  simp [byte_and_allOnes]

/-- A claim about some command is the claim about some command of one of the five rows. -/
theorem Instr.exists_iff {p : Instr → Prop} :
    (∃ i, p i) ↔ p .nop ∨ (∃ msb lsb, p (.dect msb lsb)) ∨ (∃ id, p (.deci id)) ∨ (∃ hi lo, p (.cvtf hi lo)) ∨
      (∃ byte, p (.cfg byte)) := by
  constructor
  · rintro ⟨i, hp⟩
    cases i with
    | nop => exact .inl hp
    | dect msb lsb => exact .inr (.inl ⟨msb, lsb, hp⟩)
    | deci id => exact .inr (.inr (.inl ⟨id, hp⟩))
    | cvtf hi lo => exact .inr (.inr (.inr (.inl ⟨hi, lo, hp⟩)))
    | cfg byte => exact .inr (.inr (.inr (.inr ⟨byte, hp⟩)))
  · rintro (h | ⟨_, _, h⟩ | ⟨_, h⟩ | ⟨_, _, h⟩ | ⟨_, h⟩) <;> exact ⟨_, h⟩

/-- Each row selects exactly the words that decode to its command. -/
theorem opcodeRow_selects_iff (w : CmdWord) {r : OpcodeRow} (hr : r ∈ opcodeTable) :
    w &&& r.mask = r.pattern ↔ ∃ i, decodeWord w = .command i ∧ i.mnemonic = r.mnemonic := by
  simp only [opcodeTable, List.mem_cons, List.not_mem_nil, or_false] at hr
  simp only [decodeWord_eq_command_iff, encode_eq_iff]
  rcases hr with rfl | rfl | rfl | rfl | rfl
  · exact (formZ_mask_iff w 0x00#8).trans (by simp [Instr.exists_iff, Instr.mnemonic, encodeFields])
  · exact (formH_mask_iff w 0x01#8).trans (by simp [Instr.exists_iff, Instr.mnemonic, encodeFields])
  · exact (formB_mask_iff w 0x02#8).trans (by simp [Instr.exists_iff, Instr.mnemonic, encodeFields])
  · exact (formH_mask_iff w 0x03#8).trans (by simp [Instr.exists_iff, Instr.mnemonic, encodeFields])
  · exact (formB_mask_iff w 0x04#8).trans (by simp [Instr.exists_iff, Instr.mnemonic, encodeFields])

theorem opcodeTable_mnemonic_injective :
    ∀ r ∈ opcodeTable, ∀ q ∈ opcodeTable, r.mnemonic = q.mnemonic → r = q := by
  decide

end Sys2Proof

namespace Sys2Proof.Machine

/-! ## The step of an illegal word -/

/-- The command step of an illegal word (R87 (3)) is its fault, committed. -/
theorem performWord_illegal {w : CmdWord} {why : IllegalReason} (s : State) (h : decodeWord w = .illegal why) :
    performWord w s = commit (raiseFault .illegalCommand w) s := by
  simp only [performWord, h]

/-! ## The assembler -/

theorem assemble_of_wellFormed {l : Asm} (h : asmWellFormed l = true) : assemble l = some (expandAsm l) := if_pos h

theorem assemble_of_not_wellFormed {l : Asm} (h : asmWellFormed l = false) : assemble l = none :=
  if_neg (by simp [h])

/-- The two bytes of a code, joined again. -/
theorem highByte_append_lowByte (c : TempCode) : (highByte c ++ lowByte c : TempCode) = c :=
  BitVec.extractLsb'_append_extractLsb'

/-- `uint(c)` from the two bytes of `c` (R30). -/
theorem toNat_highByte_lowByte (c : TempCode) : 256 * (highByte c).toNat + (lowByte c).toNat = c.toNat := by
  simp only [highByte, lowByte, BitVec.extractLsb'_toNat, Nat.shiftRight_eq_div_pow]
  have := c.isLt
  omega

/-- The two spellings of R51's range for a Celsius literal: its numerator over 128, and an integer that is 128 times it. -/
theorem celsiusEncodable_iff (q : Rat) :
    celsiusEncodable q = true ↔ ∃ n : Int, 128 * q = (n : Rat) ∧ -32768 ≤ n ∧ n ≤ 32767 := by
  simp only [celsiusEncodable, Bool.and_eq_true, beq_iff_eq, decide_eq_true_eq, and_assoc, Rat.den_eq_one_iff]
  constructor
  · rintro ⟨hint, hlo, hhi⟩
    exact ⟨_, by rw [hint, mul_comm], hlo, hhi⟩
  · rintro ⟨n, hn, hlo, hhi⟩
    rw [mul_comm q, hn, Rat.num_intCast]
    exact ⟨rfl, hlo, hhi⟩

/-- `trunc_16` loses nothing on a code's own range. -/
theorem toInt_ofInt_code {n : Int} (hlo : -32768 ≤ n) (hhi : n ≤ 32767) : (BitVec.ofInt 16 n).toInt = n := by
  rw [BitVec.toInt_ofInt, Int.bmod_eq_of_le] <;> omega

/-- A Celsius literal in range assembles to `CVTF` with the bytes of the code of 128 times its value. -/
theorem assemble_cvtfc {q : Rat} {n : Int} (hn : 128 * q = (n : Rat)) (hlo : -32768 ≤ n) (hhi : n ≤ 32767) :
    assemble (.cvtfc q) = some (cvtfOfCode (BitVec.ofInt 16 n)) := by
  have inRange : asmWellFormed (.cvtfc q) = true := (celsiusEncodable_iff q).mpr ⟨n, hn, hlo, hhi⟩
  rw [assemble_of_wellFormed inRange, expandAsm, mul_comm q, hn, Rat.num_intCast]

/-! ## Commands with an effect -/

/-- Each command but `NOP` writes, on some live block, an element that block did not hold so: a register that is absent
after `Reset`, or, for `CFG`, the other report. -/
theorem effectOf_changes_a_live_block {i : Instr} (h : i ≠ .nop) : ∃ b : Block, b.err = 0x00#8 ∧ effectOf i b ≠ b := by
  cases i with
  | nop => exact absurd rfl h
  | dect msb lsb => exact ⟨Block.reset, rfl, fun e => nomatch congrArg Block.temp e⟩
  | deci id => exact ⟨Block.reset, rfl, fun e => nomatch congrArg Block.mfg e⟩
  | cvtf hi lo => exact ⟨Block.reset, rfl, fun e => nomatch congrArg Block.fahr e⟩
  | cfg byte =>
    refine ⟨{ Block.reset with res16 := !resolutionBit byte }, rfl, fun e => ?_⟩
    exact Bool.self_ne_not _ (congrArg Block.res16 e)

/-! ## The obligations -/

/-- Settles O1: a command's fields meet the decoder's test for it (`decodeWord_encode`), and its three bytes join to the same
word. -/
theorem decodeOfEncodeGivesTheCommand : Obligations.DecodeOfEncodeGivesTheCommand := by
  unfold Obligations.DecodeOfEncodeGivesTheCommand
  exact fun i => ⟨decodeWord_encode i, decodeBytes_encodeBytes_append i⟩

/-- Settles O2: the decoder finds a command only in that command's fields, and a word has no bit outside its fields. -/
theorem encodeOfADecodedWordIsTheWord : Obligations.EncodeOfADecodedWordIsTheWord := by
  unfold Obligations.EncodeOfADecodedWordIsTheWord
  exact fun _ _ h => decodeWord_eq_command_iff.mp h

/-- Settles O3: the decoder refuses what `Fields.wellFormed` refuses, which is R46's list; the fault is the effect a live
block commits. -/
theorem illegalWordsAreExactlyThoseNamedAndFault : Obligations.IllegalWordsAreExactlyThoseNamedAndFault := by
  unfold Obligations.IllegalWordsAreExactlyThoseNamedAndFault
  refine fun w => ⟨?_, ?_⟩
  · rw [decodeWord, decodeFields_illegal_iff, Fields.wellFormed_eq_false_iff, formOfOpc_eq_none_iff, formOfOpc_eq_z_iff,
      formOfOpc_eq_b_iff]
    rfl
  · rintro ⟨why, hd⟩ b rest live
    rw [step_input rfl, performPins_command _ rfl rfl, Pins.command_cmd, performWord_illegal _ hd, commit_live _ live]
    rfl

/-- Settles O4. -/
theorem legalAndIllegalWordCounts : Obligations.LegalAndIllegalWordCounts := by
  unfold Obligations.LegalAndIllegalWordCounts
  exact ⟨card_legal_words, card_illegal_words⟩

/-- Settles O5: two rows that select one word name the mnemonic of its one command, and no two rows share a mnemonic. -/
theorem opcodeMapRowsSelectExactlyTheirCommand : Obligations.OpcodeMapRowsSelectExactlyTheirCommand := by
  unfold Obligations.OpcodeMapRowsSelectExactlyTheirCommand
  refine ⟨fun w r hr => opcodeRow_selects_iff w hr, fun w r hr q hq selr selq => ?_⟩
  obtain ⟨i, hi, hri⟩ := (opcodeRow_selects_iff w hr).mp selr
  obtain ⟨j, hj, hqj⟩ := (opcodeRow_selects_iff w hq).mp selq
  cases hi.symm.trans hj
  exact opcodeTable_mnemonic_injective r hr q hq (hri.symm.trans hqj)

/-- Settles O7: the bytes of a code join to that code, as an unsigned and as a signed number; a literal out of range makes
an ill-formed line. -/
theorem pseudoCommandsExpandToOneCommand : Obligations.PseudoCommandsExpandToOneCommand := by
  unfold Obligations.PseudoCommandsExpandToOneCommand
  refine ⟨rfl, rfl, fun n hn => ?_, fun q n hq hlo hhi => ?_, fun n hn => ?_, fun q hq => ?_, ?_, ?_⟩
  · have fits : fitsCode n = true := decide_eq_true hn
    refine ⟨highByte (BitVec.ofNat 16 n), lowByte (BitVec.ofNat 16 n), ?_, assemble_of_wellFormed fits,
      assemble_of_wellFormed fits⟩
    rw [toNat_highByte_lowByte, BitVec.toNat_ofNat, Nat.mod_eq_of_lt hn]
  · refine ⟨_, _, assemble_cvtfc hq hlo hhi, ?_⟩
    rw [highByte_append_lowByte, toInt_ofInt_code hlo hhi]
  · have outside : fitsCode n = false := decide_eq_false hn.not_gt
    exact ⟨assemble_of_not_wellFormed outside, assemble_of_not_wellFormed outside⟩
  · exact assemble_of_not_wellFormed (Bool.eq_false_iff.mpr fun h => hq ((celsiusEncodable_iff q).mp h))
  · exact assemble_cvtfc (q := 100) (n := 12800) (by norm_num) (by decide) (by decide)
  · exact assemble_cvtfc (q := -40) (n := -5120) (by norm_num) (by decide) (by decide)

/-- Settles O14: `NOP` writes nothing; for every other command `effectOf_changes_a_live_block` has the live state. -/
theorem onlyNopChangesNothing : Obligations.OnlyNopChangesNothing := by
  unfold Obligations.OnlyNopChangesNothing
  intro i
  constructor
  · intro unchanged
    by_contra hi
    obtain ⟨b, live, changed⟩ := effectOf_changes_a_live_block hi
    have same := (exec_live i (s := { block := b, inputs := [] }) live).symm.trans (unchanged _ live)
    injection same with same
    exact changed (congrArg State.block same)
  · rintro rfl s live
    exact exec_live .nop live

/-- Settles O6: the legal words are the words of their commands, the refused ones run through the decoder's list. -/
theorem wordsOfTheSpecDecodeAsWritten : Obligations.WordsOfTheSpecDecodeAsWritten := by
  unfold Obligations.WordsOfTheSpecDecodeAsWritten
  exact ⟨decodeWord_encode .nop, decodeWord_encode (.dect 0x09#8 0x60#8), decodeWord_encode (.deci 0xCB#8),
    decodeWord_encode (.cvtf 0x32#8 0x00#8), decodeWord_encode (.cfg 0x80#8), rfl, rfl, rfl⟩

end Sys2Proof.Machine
end

section
/-! PROOFS. The statements of 40_temperature.md: what `DECT` writes, the signed reading of a pair and the document's
formula for it, its split into whole degrees and fraction, and when a Celsius value may be claimed (R55 to R60, R107). -/

namespace Sys2Proof.Machine

/-! ## A pair as an unsigned and as a signed number -/

/-- The document's `(msb<<8)|lsb` is the unsigned value of the pair (R30, R55). -/
theorem documentAdc_eq (msb lsb : Byte) : documentAdc msb lsb = (imm16 msb lsb).toNat :=
  (BitVec.toNat_append msb lsb).symm

/-- The signed value of a code from its unsigned one and bit 15 (R8, R56). -/
theorem code_toInt (c : TempCode) :
    c.toInt = if c.getLsbD 15 then (c.toNat : Int) - 65536 else (c.toNat : Int) := by
  simpa [BitVec.msb_eq_getLsbD_last] using c.toInt_eq_msb_cond

theorem code_toInt_bounds (c : TempCode) : -32768 ≤ c.toInt ∧ c.toInt ≤ 32767 :=
  ⟨c.le_toInt, Int.le_of_lt_add_one c.toInt_lt⟩

/-- The signed value of a byte from its unsigned one and bit 7. -/
theorem byte_toInt (m : Byte) : m.toInt = if m.getLsbD 7 then (m.toNat : Int) - 256 else (m.toNat : Int) := by
  simpa [BitVec.msb_eq_getLsbD_last] using m.toInt_eq_msb_cond

/-- The document's two branches are the signed value of the pair (R60): its bit test is bit 15 of the pair. -/
theorem documentSigned_eq (msb lsb : Byte) : documentSigned msb lsb = (imm16 msb lsb).toInt := by
  rw [documentSigned, documentAdc_eq, BitVec.testBit_toNat, code_toInt, Config.twosModulus]

/-- The document's `decode_temperature` is the number the pair stands for (R57). -/
theorem documentTemperature_eq (msb lsb : Byte) : documentTemperature msb lsb = celsiusOfCode (imm16 msb lsb) := by
  rw [celsiusOfCode, ← documentSigned_eq, documentTemperature, documentSigned]
  split <;> push_cast <;> rfl

/-! ## The laws of R59 -/

/-- The byte weights: the high byte counts 256 with its sign, the low byte is unsigned. -/
theorem pair_toInt (m l : Byte) : (imm16 m l).toInt = 256 * m.toInt + l.toNat := BitVec.toInt_append

theorem pair_toInt_inj {m₁ l₁ m₂ l₂ : Byte} :
    (imm16 m₁ l₁).toInt = (imm16 m₂ l₂).toInt ↔ m₁ = m₂ ∧ l₁ = l₂ := by
  rw [pair_toInt, pair_toInt, ← BitVec.toInt_inj, ← BitVec.toNat_inj]
  have low₁ : l₁.toNat < 256 := l₁.isLt
  have low₂ : l₂.toNat < 256 := l₂.isLt
  omega

theorem pair_toInt_eq_zero_iff (m l : Byte) : (imm16 m l).toInt = 0 ↔ m = 0x00#8 ∧ l = 0x00#8 :=
  pair_toInt_inj (m₂ := 0x00#8) (l₂ := 0x00#8)

theorem pair_toInt_neg_iff (m l : Byte) : (imm16 m l).toInt < 0 ↔ m.getLsbD 7 = true := by
  have sign : (imm16 m l).msb = m.getLsbD 7 := by
    rw [imm16, BitVec.msb_append, if_neg (by decide), BitVec.msb_eq_getLsbD_last]
  rw [← sign, BitVec.msb_eq_toInt, decide_eq_true_iff]

/-- Among pairs of one sign the signed order is the unsigned one. -/
theorem pair_toInt_lt_iff {m₁ m₂ : Byte} (l₁ l₂ : Byte) (sign : m₁.getLsbD 7 = m₂.getLsbD 7) :
    256 * m₁.toNat + l₁.toNat < 256 * m₂.toNat + l₂.toNat ↔ (imm16 m₁ l₁).toInt < (imm16 m₂ l₂).toInt := by
  rw [pair_toInt, pair_toInt, byte_toInt, byte_toInt, sign]
  split <;> omega

/-- A pair with the sign bit set reads below one without. -/
theorem pair_toInt_lt_of_signs {m₁ m₂ : Byte} (l₁ l₂ : Byte) (h₁ : m₁.getLsbD 7 = true) (h₂ : m₂.getLsbD 7 = false) :
    (imm16 m₁ l₁).toInt < (imm16 m₂ l₂).toInt := by
  have negative := (pair_toInt_neg_iff m₁ l₁).mpr h₁
  have notNegative : ¬ (imm16 m₂ l₂).toInt < 0 := by rw [pair_toInt_neg_iff, h₂]; decide
  omega

/-- Each integer of the range is the signed value of a pair. -/
theorem exists_pair_toInt {v : Int} (hlo : -32768 ≤ v) (hhi : v ≤ 32767) : ∃ m l, (imm16 m l).toInt = v :=
  ⟨highByte (BitVec.ofInt 16 v), lowByte (BitVec.ofInt 16 v), by
    rw [imm16, highByte_append_lowByte, toInt_ofInt_code hlo hhi]⟩

/-! ## Whole degrees and fraction (R58) -/

/-- A code is its integer part times 128 plus its fraction part. -/
theorem code_toInt_eq_parts (c : TempCode) : c.toInt = 128 * integerPart c + fractionPart c :=
  calc c.toInt = (c.extractLsb' 7 9 ++ c.extractLsb' 0 7 : TempCode).toInt := by
        rw [show (c.extractLsb' 7 9 ++ c.extractLsb' 0 7 : TempCode) = c from BitVec.extractLsb'_append_extractLsb']
    _ = 128 * integerPart c + fractionPart c := BitVec.toInt_append

theorem fractionPart_lt (c : TempCode) : fractionPart c < 128 := (c.extractLsb' 0 7).isLt

theorem celsiusOfCode_eq (c : TempCode) : celsiusOfCode c = (c.toInt : Rat) / 128 := rfl

theorem celsiusOfCode_eq_parts (c : TempCode) :
    celsiusOfCode c = (integerPart c : Rat) + (fractionPart c : Rat) / 128 := by
  rw [celsiusOfCode_eq, code_toInt_eq_parts]
  push_cast
  ring

/-- The integer part is the floor, also of a negative number: what is left over 128 is less than one. -/
theorem integerPart_eq_floor (c : TempCode) : integerPart c = ⌊(c.toInt : Rat) / 128⌋ := by
  have fraction := fractionPart_lt c
  have parts := code_toInt_eq_parts c
  rw [show (128 : Rat) = (128 : ℕ) from rfl, Rat.floor_intCast_div_natCast]
  omega

/-! ## What `DECT` leaves behind -/

/-- The signed reading after a sample was written is the signed value of its code. -/
@[simp] theorem Block.signedReading_writeTemp (c : TempCode) (b : Block) :
    (b.writeTemp c).signedReading = some c.toInt := rfl

/-- `DECT` on a live block completes, and the block reads the pair as signed. -/
theorem exec_dect_signedReading (msb lsb : Byte) {s : State} (live : s.block.err = 0x00#8) :
    ∃ t, exec (.dect msb lsb) s = .next t ∧ t.block.signedReading = some (imm16 msb lsb).toInt :=
  ⟨_, exec_live _ live, Block.signedReading_writeTemp _ _⟩

/-! ## When a Celsius value may be claimed -/

/-- Without a confirmed sample there is no Celsius value, whatever is presumed of the sensor. -/
theorem Block.celsius_of_unconfirmed {b : Block} (h : b.tsc = false) (mode : Bool) : b.celsius mode = none := by
  simp [Block.celsius, h]

theorem not_meansCelsius_of_unconfirmed {b : Block} (h : b.tsc = false) (mode : Prop) (q : Rat) :
    ¬ MeansCelsius mode b q := by
  rintro ⟨-, -, htsc, -⟩
  simp [h] at htsc

/-- With a confirmed sample the premise about the sensor is all that is left of the claim. -/
theorem meansCelsius_iff_of_confirmed {b : Block} {c : TempCode} (htv : b.tv = true) (htsc : b.tsc = true)
    (htemp : b.temp = some c) (mode : Prop) : MeansCelsius mode b (celsiusOfCode c) ↔ mode :=
  ⟨fun ⟨hmode, _⟩ => hmode, fun hmode => ⟨hmode, htv, htsc, c, htemp, rfl⟩⟩

theorem Block.celsius_of_confirmed {b : Block} {c : TempCode} (htv : b.tv = true) (htsc : b.tsc = true)
    (htemp : b.temp = some c) : b.celsius true = some (celsiusOfCode c) := by
  simp [Block.celsius, htv, htsc, htemp]

theorem Block.celsius_without_premise (b : Block) : b.celsius false = none := rfl

/-- A report and then a sample on a live block. -/
theorem presentAll_cfg_dect (byte msb lsb : Byte) {s : State} (live : s.block.err = 0x00#8) :
    presentAll [Pins.command (encode (.cfg byte)), Pins.command (encode (.dect msb lsb))] s =
      .next { s with block := (s.block.writeRes16 (resolutionBit byte)).writeTemp (imm16 msb lsb) } :=
  (presentAll_encode_cons (.cfg byte) _ live).trans (presentAll_encode_cons (.dect msb lsb) [] live)

/-! ## Runs without a report of 16-bit mode -/

/-- The block has no report of 16-bit mode, and no sample written under one. -/
def Block.Unreported (b : Block) : Prop := b.res16 = false ∧ b.tsc = false

/-- A command keeps the block so, if it is not a `CFG` that reports 16-bit mode: `DECT` copies `RES16`, `CFG` writes a bit that
is 0, and the others write neither. -/
theorem Block.Unreported.effectOf {b : Block} (h : b.Unreported) {i : Instr}
    (noReport : ∀ byte, i = .cfg byte → byte.getLsbD 7 = false) : (Machine.effectOf i b).Unreported := by
  obtain ⟨hres, htsc⟩ := h
  cases i with
  | nop => exact ⟨hres, htsc⟩
  | dect msb lsb => exact ⟨hres, hres⟩
  | deci id =>
    obtain ⟨-, -, idTsc, -, -, idRes⟩ := identify_frame id b
    exact ⟨idRes.trans hres, idTsc.trans htsc⟩
  | cvtf hi lo => exact ⟨hres, htsc⟩
  | cfg byte => exact ⟨noReport byte rfl, htsc⟩

/-- A presentation keeps the block so, if it is not such a report. -/
theorem performPins_keeps_unreported (p : Pins) (s t : State)
    (noReport : p.cmdValid = true → ∀ byte, decodeWord p.cmd = .command (.cfg byte) → byte.getLsbD 7 = false)
    (hs : s.block.Unreported) (h : performPins p s = .next t) : t.block.Unreported := by
  rcases performPins_cases p s with
    ⟨-, ht⟩ | ⟨-, -, ht⟩ | ⟨-, -, -, ht⟩ | ⟨-, -, -, -, ht⟩ | ⟨-, hv, -, i, hd, -, ht⟩
  all_goals cases ht.symm.trans h
  · exact ⟨rfl, rfl⟩
  · exact hs
  · exact hs
  · exact hs
  · exact hs.effectOf fun byte hi => noReport hv byte (hi ▸ hd)

/-! ## The obligations -/

/-- Settles O15: on a live block the effect of `DECT` is `Block.writeTemp` of its pair. -/
theorem dectCompletesAndStoresThePair : Obligations.DectCompletesAndStoresThePair := by
  unfold Obligations.DectCompletesAndStoresThePair
  exact fun _ msb lsb live => exec_live (.dect msb lsb) live

/-- Settles O30: by induction on the run, with `Block.Unreported` kept by every presentation. -/
theorem noCelsiusWithoutAModeReport : Obligations.NoCelsiusWithoutAModeReport := by
  unfold Obligations.NoCelsiusWithoutAModeReport
  intro k s t hres htsc noReport run
  obtain ⟨tres, ttsc⟩ : t.block.Unreported :=
    runSteps_induction performPins_keeps_unreported k s t noReport ⟨hres, htsc⟩ run
  exact ⟨Block.celsius_of_unconfirmed ttsc, tres, ttsc⟩

/-- Settles O33: both branches test bit 15 of the pair, whose naturals `documentAdc_eq` joins. -/
theorem signedReadingIsTheDocumentsFormula : Obligations.SignedReadingIsTheDocumentsFormula := by
  unfold Obligations.SignedReadingIsTheDocumentsFormula
  refine ⟨fun c => ⟨code_toInt c, code_toInt_bounds c⟩, fun msb lsb => (documentSigned_eq msb lsb).symm,
    fun s msb lsb live => ?_⟩
  rw [documentSigned_eq]
  exact exec_dect_signedReading msb lsb live

/-- Settles O34: the readings are the signed values of the two pairs, so each law is one of `imm16`. -/
theorem signedReadingLaws : Obligations.SignedReadingLaws := by
  unfold Obligations.SignedReadingLaws
  refine fun s live => ⟨fun m₁ l₁ m₂ l₂ => ?_, fun v hlo hhi => ?_⟩
  · obtain ⟨t, ht, hv⟩ := exec_dect_signedReading m₁ l₁ live
    obtain ⟨u, hu, hw⟩ := exec_dect_signedReading m₂ l₂ live
    exact ⟨t, u, _, _, ht, hu, hv, hw, pair_toInt_inj.mp, pair_toInt_eq_zero_iff m₁ l₁, pair_toInt_neg_iff m₁ l₁,
      pair_toInt_lt_iff l₁ l₂, pair_toInt_lt_of_signs l₁ l₂, pair_toInt m₁ l₁, code_toInt_bounds _⟩
  · obtain ⟨m, l, rfl⟩ := exists_pair_toInt hlo hhi
    obtain ⟨t, ht, hv⟩ := exec_dect_signedReading m l live
    exact ⟨m, l, t, ht, hv⟩

/-- Settles O35: the `DECT` after `CFG 0x80` confirms its sample, the one after `CFG 0x00` does not. -/
theorem celsiusNeedsTheReportedMode : Obligations.CelsiusNeedsTheReportedMode := by
  unfold Obligations.CelsiusNeedsTheReportedMode
  intro s msb lsb live
  rw [documentTemperature_eq]
  exact ⟨⟨_, presentAll_cfg_dect 0x80#8 msb lsb live, Block.celsius_of_confirmed rfl rfl rfl,
      Block.celsius_without_premise _, meansCelsius_iff_of_confirmed rfl rfl rfl⟩,
    ⟨_, presentAll_cfg_dect 0x00#8 msb lsb live, Block.celsius_of_unconfirmed rfl, rfl,
      not_meansCelsius_of_unconfirmed rfl⟩⟩

/-- Settles O36: the nine high bits and the seven low bits of a code are its quotient and remainder by 128. -/
theorem codeSplitsIntoFloorAndFraction : Obligations.CodeSplitsIntoFloorAndFraction := by
  unfold Obligations.CodeSplitsIntoFloorAndFraction
  refine ⟨fun c => ⟨celsiusOfCode_eq_parts c, celsiusOfCode_eq c, integerPart_eq_floor c,
    Nat.le_of_lt_succ (fractionPart_lt c), rfl, rfl⟩, ?_⟩
  decide

end Sys2Proof.Machine
end

section
/-! PROOFS. The statements of 41_identity.md: the split of the ID byte, the vendor match, and the identity as written once
and then constant (R63 to R68). -/

namespace Sys2Proof.Machine

/-! ## The two fields of the ID byte (R64, R68) -/

theorem mfgField_append_revField (id : Byte) : (mfgField id ++ revField id : Byte) = id :=
  BitVec.extractLsb'_append_extractLsb'

theorem mfgField_append (m : MfgCode) (r : RevCode) : mfgField (m ++ r) = m :=
  BitVec.extractLsb'_append_eq_left

/-- The fields are the document's shift and mask. -/
theorem documentIdentity_eq (id : Byte) : documentIdentity id = ((mfgField id).toNat, (revField id).toNat) := by
  rw [documentIdentity, mfgField, revField, BitVec.extractLsb'_toNat, BitVec.extractLsb'_toNat, Nat.shiftRight_zero,
    ← Nat.and_two_pow_sub_one_eq_mod, ← Nat.and_two_pow_sub_one_eq_mod]

/-- The value of the byte from its fields: the manufacturer code counts 8. -/
theorem byte_toNat_eq_fields (id : Byte) : id.toNat = 8 * (mfgField id).toNat + (revField id).toNat := by
  have byteBound : id.toNat < 256 := id.isLt
  rw [mfgField, revField, BitVec.extractLsb'_toNat, BitVec.extractLsb'_toNat, Nat.shiftRight_zero,
    Nat.shiftRight_eq_div_pow]
  omega

theorem byte_eq_of_fields_eq {x y : Byte} (hm : mfgField x = mfgField y) (hr : revField x = revField y) : x = y := by
  rw [← mfgField_append_revField x, hm, hr, mfgField_append_revField]

/-- The bytes with the one known code are eight in a row, one for each revision code. -/
theorem mfgField_eq_known_iff (id : Byte) : mfgField id = 0b11001#5 ↔ 0xC8 ≤ id.toNat ∧ id.toNat ≤ 0xCF := by
  have value := byte_toNat_eq_fields id
  have revBound : (revField id).toNat < 8 := (revField id).isLt
  rw [← BitVec.toNat_inj, show (0b11001#5).toNat = 25 from rfl]
  omega

/-! ## The vendor match (R65) -/

theorem vendorKnown_eq_decide (m : MfgCode) :
    vendorKnown Config.knownVendorCodes m = decide (m = 0b11001#5) := by
  rw [Bool.eq_iff_iff, vendorKnown_iff, decide_eq_true_iff]

/-! ## The first `DECI` and a later one (R63, R66) -/

theorem identify_of_no_identity (id : Byte) {b : Block} (undecoded : b.idv = false) :
    identify id b =
      b.writeIdentity (mfgField id) (revField id) (vendorKnown Config.knownVendorCodes (mfgField id)) := by
  simp [identify, undecoded]

theorem identify_of_identity (id : Byte) {b : Block} (decoded : b.idv = true) :
    identify id b = raiseFault .identityLocked (encode (.deci id)) b := by
  simp [identify, decoded]

/-- `DECI` on a live block without an identity writes the split of its byte and the vendor match. -/
theorem exec_deci_first (id : Byte) {s : State} (live : s.block.err = 0x00#8) (undecoded : s.block.idv = false) :
    exec (.deci id) s =
      .next { s with
        block := s.block.writeIdentity (mfgField id) (revField id)
          (vendorKnown Config.knownVendorCodes (mfgField id)) } := by
  rw [exec_live _ live, effectOf, identify_of_no_identity id undecoded]

/-- `DECI` on a live block with an identity faults. -/
theorem exec_deci_later (id : Byte) {s : State} (live : s.block.err = 0x00#8) (decoded : s.block.idv = true) :
    exec (.deci id) s =
      .next { s with block := raiseFault .identityLocked (encode (.deci id)) s.block } := by
  rw [exec_live _ live, effectOf, identify_of_identity id decoded]

/-! ## The identity from the first `DECI` until `Reset` (R66) -/

/-- The four elements of the identity are as they were. -/
def Block.SameIdentity (b c : Block) : Prop :=
  c.mfg = b.mfg ∧ c.rev = b.rev ∧ c.vk = b.vk ∧ c.idv = b.idv

theorem Block.SameIdentity.refl (b : Block) : b.SameIdentity b := ⟨rfl, rfl, rfl, rfl⟩

theorem Block.SameIdentity.trans {a b c : Block} (hab : a.SameIdentity b) (hbc : b.SameIdentity c) :
    a.SameIdentity c := by
  obtain ⟨mfg₁, rev₁, vk₁, idv₁⟩ := hab
  obtain ⟨mfg₂, rev₂, vk₂, idv₂⟩ := hbc
  exact ⟨mfg₂.trans mfg₁, rev₂.trans rev₁, vk₂.trans vk₁, idv₂.trans idv₁⟩

theorem Block.SameIdentity.idv_eq {b c : Block} (h : b.SameIdentity c) : c.idv = b.idv := by
  obtain ⟨-, -, -, hidv⟩ := h
  exact hidv

theorem Block.SameIdentity.raiseFault (cause : FaultCause) (w : CmdWord) (b : Block) :
    b.SameIdentity (Machine.raiseFault cause w b) := ⟨rfl, rfl, rfl, rfl⟩

/-- No command but `DECI` writes the identity. -/
theorem effectOf_sameIdentity_of_not_deci {i : Instr} (b : Block) (hi : ∀ id, i ≠ .deci id) :
    b.SameIdentity (effectOf i b) := by
  obtain ⟨-, -, same⟩ := (effectOf_identity_cases i b).resolve_left fun ⟨id, e⟩ => hi id e
  exact same

/-- Once there is an identity no command writes it: a `DECI` faults instead. -/
theorem effectOf_sameIdentity_of_identity (i : Instr) {b : Block} (decoded : b.idv = true) :
    b.SameIdentity (effectOf i b) := by
  rcases effectOf_identity_cases i b with ⟨id, rfl⟩ | ⟨-, -, same⟩
  · rw [effectOf, identify_of_identity id decoded]
    exact .raiseFault _ _ b
  · exact same

/-- Once there is an identity every presentation without `rst` keeps it. -/
theorem performPins_keeps_identity {p : Pins} {s t : State} (hr : p.rst = false) (decoded : s.block.idv = true)
    (h : performPins p s = .next t) : s.block.SameIdentity t.block := by
  rcases performPins_cases p s with
    ⟨hr', -⟩ | ⟨-, -, ht⟩ | ⟨-, -, -, ht⟩ | ⟨-, -, -, -, ht⟩ | ⟨-, -, -, i, -, -, ht⟩
  · exact absurd hr' (by simp [hr])
  all_goals cases ht.symm.trans h
  · exact .refl _
  · exact .refl _
  · exact .raiseFault _ _ _
  · exact effectOf_sameIdentity_of_identity i decoded

/-- Every run without `Reset` that begins with an identity ends with it. -/
theorem runSteps_keeps_identity {k : Nat} {s t : State} (decoded : s.block.idv = true) (noReset : NoReset s.inputs)
    (run : runSteps k s = .next t) : s.block.SameIdentity t.block := by
  refine runSteps_induction (P := s.block.SameIdentity) (fun p u v hr same hv => ?_) k s t noReset (.refl _) run
  have stillDecoded : u.block.idv = true := same.idv_eq.trans decoded
  exact same.trans (performPins_keeps_identity hr stillDecoded hv)

/-! ## The obligations -/

/-- Settles O29: the first `DECI` is `exec_deci_first`, a later one `exec_deci_later`; a command that is no `DECI` is
dropped or keeps the identity, and so does every run without `Reset` that begins with one. -/
theorem identityIsWrittenOnceAndThenConstant : Obligations.IdentityIsWrittenOnceAndThenConstant := by
  unfold Obligations.IdentityIsWrittenOnceAndThenConstant
  refine ⟨fun s id live undecoded => ?_, fun s id live decoded => ?_, fun i s t hi h => ?_,
    fun k s t decoded noReset run => ?_⟩
  · exact ⟨_, _, _, exec_deci_first id live undecoded, rfl, rfl, rfl, mfgField_append_revField id, live⟩
  · exact ⟨_, exec_deci_later id live decoded, rfl, rfl, rfl, rfl, decoded⟩
  · rcases exec_next_cases h with rfl | ⟨-, rfl⟩
    · exact Block.SameIdentity.refl _
    · exact effectOf_sameIdentity_of_not_deci s.block hi
  · obtain ⟨hmfg, hrev, hvk, hidv⟩ := runSteps_keeps_identity decoded noReset run
    exact ⟨hmfg, hrev, hvk, hidv.trans decoded⟩

/-- Settles O39: the first `DECI` writes the two fields, which join to the byte again. -/
theorem identityFieldsPartitionTheByte : Obligations.IdentityFieldsPartitionTheByte := by
  unfold Obligations.IdentityFieldsPartitionTheByte
  refine ⟨fun s id live undecoded => ?_, fun _ _ => byte_eq_of_fields_eq⟩
  obtain ⟨hmfg, hrev⟩ := Prod.mk.inj (documentIdentity_eq id)
  exact ⟨_, _, _, exec_deci_first id live undecoded, rfl, rfl, mfgField_append_revField id, byte_toNat_eq_fields id,
    hmfg.symm, hrev.symm⟩

/-- Settles O40: the match is on the manufacturer code alone, and the bytes with the known code are 0xC8 to 0xCF. -/
theorem vendorIsKnownForExactlyEightBytes : Obligations.VendorIsKnownForExactlyEightBytes := by
  unfold Obligations.VendorIsKnownForExactlyEightBytes
  refine ⟨fun s id live undecoded => ?_, fun m r q => ?_⟩
  · exact ⟨_, _, exec_deci_first id live undecoded, rfl, vendorKnown_iff _,
      (vendorKnown_iff _).trans (mfgField_eq_known_iff id)⟩
  · rw [mfgField_append, mfgField_append]

/-- Settles O16: `exec_deci_first`, with the vendor match as a comparison. -/
theorem deciCompletesAndSplitsTheByte : Obligations.DeciCompletesAndSplitsTheByte := by
  unfold Obligations.DeciCompletesAndSplitsTheByte
  intro s id live undecoded
  rw [exec_deci_first id live undecoded, vendorKnown_eq_decide]
  rfl

end Sys2Proof.Machine
end

section
/-! PROOFS. The statements of 42_fahrenheit.md: what `CVTF` writes, the range and order of the numerator, and the Fahrenheit
reading (R70 to R72). -/

namespace Sys2Proof.Machine

/-! ## The numerator (R72) -/

theorem fahrCode_toInt_bounds (c : TempCode) : -274432 ≤ (fahrCode c).toInt ∧ (fahrCode c).toInt ≤ 315383 := by
  obtain ⟨lower, upper⟩ := code_toInt_bounds c
  rw [fahrCode_toInt]
  omega

/-- A greater code has a greater numerator, and only a greater one has. -/
theorem fahrCode_toInt_lt_iff (c d : TempCode) : c.toInt < d.toInt ↔ (fahrCode c).toInt < (fahrCode d).toInt := by
  rw [fahrCode_toInt, fahrCode_toInt]
  omega

/-- One code step moves the numerator by 9 (R71). -/
theorem fahrCode_toInt_of_next {c d : TempCode} (next : d.toInt = c.toInt + 1) :
    (fahrCode d).toInt = (fahrCode c).toInt + 9 := by
  rw [fahrCode_toInt, fahrCode_toInt, next]
  ring

/-- 19 bits would not be enough: the greatest numerator wraps in them. -/
theorem greatest_numerator_wraps_in_19_bits :
    (BitVec.ofInt 19 (9 * (0x7FFF#16).toInt + 20480)).toInt ≠ 9 * (0x7FFF#16).toInt + 20480 := by decide

/-! ## The Fahrenheit reading (R71) -/

theorem fahrenheitOfCode_eq (f : FahrCode) : fahrenheitOfCode f = (f.toInt : Rat) / 640 := rfl

theorem documentFahrenheit_eq (q : Rat) : documentFahrenheit q = q * 9 / 5 + 32 := rfl

/-- The numerator over 640 is the document's formula on the number the code stands for: 640 is 5 times 128, and the offset
20480 is 32 times 640. -/
theorem fahrenheitOfCode_fahrCode (c : TempCode) :
    fahrenheitOfCode (fahrCode c) = documentFahrenheit (celsiusOfCode c) := by
  rw [fahrenheitOfCode_eq, fahrCode_toInt, documentFahrenheit_eq, celsiusOfCode_eq]
  push_cast
  ring

/-- While `FV` is set the reading is that of the code in `FAHR`. -/
theorem Block.fahrenheit_of_valid {b : Block} {f : FahrCode} (hfv : b.fv = true) (hfahr : b.fahr = some f) :
    b.fahrenheit = some (fahrenheitOfCode f) := by
  rw [Block.fahrenheit, Block.ports, shownWhen_of_true _ hfv, hfahr, Option.map_some]

/-! ## What `CVTF` leaves behind -/

/-- `CVTF` on a live block writes the numerator of its operand, and nothing else. -/
theorem exec_cvtf (hi lo : Byte) {s : State} (live : s.block.err = 0x00#8) :
    exec (.cvtf hi lo) s = .next { s with block := s.block.writeFahr (fahrCode (imm16 hi lo)) } :=
  exec_live (.cvtf hi lo) live

/-- The block then reads the document's conversion of the operand. -/
theorem Block.fahrenheit_writeFahr_fahrCode (c : TempCode) (b : Block) :
    (b.writeFahr (fahrCode c)).fahrenheit = some (documentFahrenheit (celsiusOfCode c)) := by
  rw [Block.fahrenheit_of_valid (b.writeFahr_fv _) (b.writeFahr_fahr _), fahrenheitOfCode_fahrCode]

/-! ## The obligations -/

/-- Settles O17: `exec_cvtf`, where `fahrCode` is `trunc_20` of R70's numerator. -/
theorem cvtfCompletesAndConverts : Obligations.CvtfCompletesAndConverts := by
  unfold Obligations.CvtfCompletesAndConverts
  exact fun _ hi lo live => exec_cvtf hi lo live

/-- Settles O37: the numerator is affine in the signed value of the code, which 20 bits hold and 19 do not. -/
theorem fahrenheitNumeratorIsExact : Obligations.FahrenheitNumeratorIsExact := by
  unfold Obligations.FahrenheitNumeratorIsExact
  refine ⟨fun s hi lo live => ?_, fahrCode_toInt_lt_iff, ⟨_, greatest_numerator_wraps_in_19_bits⟩, ?_⟩
  · exact ⟨_, _, exec_cvtf hi lo live, Block.writeFahr_fahr _ _, fahrCode_toInt _, fahrCode_toInt_bounds _⟩
  · intro row hrow
    fin_cases hrow <;> rfl

/-- Settles O38: the reading is the code's in `FAHR`, which `CVTF` makes the document's conversion of its operand. -/
theorem fahrenheitIsNineFifthsPlusThirtyTwo : Obligations.FahrenheitIsNineFifthsPlusThirtyTwo := by
  unfold Obligations.FahrenheitIsNineFifthsPlusThirtyTwo
  exact ⟨fun _ _ hfv hfahr => Block.fahrenheit_of_valid hfv hfahr,
    fun _ hi lo live => ⟨_, exec_cvtf hi lo live, Block.fahrenheit_writeFahr_fahrCode _ _⟩,
    fun _ _ => fahrCode_toInt_of_next⟩

end Sys2Proof.Machine
end

section
/-! PROOFS. The statements of 43_control.md: `NOP` writes nothing, `CFG` records bit 7 of its byte (R75, R76). -/

namespace Sys2Proof.Machine

/-! ## `NOP` (R75) -/

/-- A frozen block drops `NOP`, a live one performs it: the two cannot be told apart by their effect. -/
theorem exec_nop (s : State) : exec .nop s = .next s := by
  rw [exec_eq_commit]
  by_cases live : s.block.err = 0x00#8
  · exact commit_live _ live
  · exact commit_frozen _ live

/-! ## `CFG` (R76) -/

/-- Bit 7 is the most significant bit of the byte: it is set exactly from 0x80 on. -/
theorem resolutionBit_eq_decide (byte : Byte) : resolutionBit byte = decide (0x80 ≤ byte.toNat) := by
  rw [resolutionBit, ← BitVec.msb_eq_getLsbD_last, BitVec.msb_eq_decide]

/-- `CFG` on a live block writes bit 7 of its byte to `RES16`, and nothing else. -/
theorem exec_cfg (byte : Byte) {s : State} (live : s.block.err = 0x00#8) :
    exec (.cfg byte) s = .next { s with block := s.block.writeRes16 (resolutionBit byte) } :=
  exec_live (.cfg byte) live

/-! ## The obligations -/

/-- Settles O13. -/
theorem nopCompletesAndChangesNothing : Obligations.NopCompletesAndChangesNothing := by
  unfold Obligations.NopCompletesAndChangesNothing
  exact ⟨rfl, exec_nop⟩

/-- Settles O18: `exec_cfg`, with bit 7 as a comparison. -/
theorem cfgCompletesAndRecordsBitSeven : Obligations.CfgCompletesAndRecordsBitSeven := by
  unfold Obligations.CfgCompletesAndRecordsBitSeven
  intro s byte live
  rw [exec_cfg byte live, resolutionBit_eq_decide]
  rfl

end Sys2Proof.Machine
end

section
/-! PROOFS. The statements of 60_exceptions.md: the order of a step's checks, the two faults and the frozen state, the
`UnknownVendor` condition (R82 to R89); the host's session and its polling loop (R93 to R102). -/

namespace Sys2Proof.Machine

/-! ## Frozen blocks (R89) -/

theorem exec_frozen (i : Instr) {s : State} (frozen : s.block.err ≠ 0x00#8) : exec i s = .next s := by
  rw [exec_eq_commit, commit_frozen _ frozen]

theorem performPins_frozen {p : Pins} {s : State} (hr : p.rst = false) (frozen : s.block.err ≠ 0x00#8) :
    performPins p s = .next s := by
  cases hv : p.cmdValid with
  | false => exact performPins_idle s hr hv
  | true =>
    obtain ⟨effect, heffect⟩ := performWord_eq_commit p.cmd
    rw [performPins_command s hr hv, heffect, commit_frozen _ frozen]

/-- A step of a frozen block without `rst` only takes the presentation off the list. -/
theorem step_frozen {s : State} (frozen : s.block.err ≠ 0x00#8) (noReset : NoReset s.inputs) :
    step s = .next { s with inputs := s.inputs.tail } := by
  cases hs : s.inputs with
  | nil => rw [step_no_input hs, List.tail_nil, ← hs]
  | cons p rest =>
    have hr : p.rst = false := noReset p (by rw [hs]; exact List.mem_cons_self)
    exact (step_input hs).trans (performPins_frozen hr frozen)

theorem runSteps_frozen (k : Nat) : ∀ {s : State}, s.block.err ≠ 0x00#8 → NoReset s.inputs →
    runSteps k s = .next { s with inputs := s.inputs.drop k } := by
  induction k with
  | zero => exact fun _ _ => rfl
  | succ k ih =>
    intro s frozen noReset
    rw [runSteps_succ_of_next (step_frozen frozen noReset),
      ih (s := { s with inputs := s.inputs.tail }) frozen fun p hp => noReset p (List.mem_of_mem_tail hp),
      List.drop_tail]

/-! ## The two faults (R83 to R88) -/

/-- A command keeps `ERR` unless it is a `DECI` that finds an identity. -/
theorem effectOf_err_of_not_locked {i : Instr} {b : Block} (h : ∀ id, i = .deci id → b.idv = false) :
    (effectOf i b).err = b.err := by
  rcases effectOf_identity_cases i b with ⟨id, rfl⟩ | ⟨herr, -⟩
  · rw [effectOf, identify_of_no_identity id (h id rfl), Block.writeIdentity_err]
  · exact herr

/-- The only command that faults a live block is a `DECI` that finds an identity. -/
theorem effectOf_fault {i : Instr} {b : Block} (live : b.err = 0x00#8) (fault : (effectOf i b).err ≠ 0x00#8) :
    b.idv = true ∧ ∃ id, i = .deci id ∧ effectOf i b = raiseFault .identityLocked (encode i) b := by
  rcases effectOf_identity_cases i b with ⟨id, rfl⟩ | ⟨herr, -⟩
  · rcases identify_cases id b with ⟨decoded, hb⟩ | ⟨-, hb⟩
    · exact ⟨decoded, id, rfl, hb⟩
    · simp [effectOf, hb, live] at fault
  · exact absurd (herr.trans live) fault

/-- A presentation that takes a live block into a fault is a command without `rst`, with one of R83's causes, and its effect
is that cause's fault entry. -/
theorem performPins_fault {p : Pins} {s t : State} (live : s.block.err = 0x00#8) (h : performPins p s = .next t)
    (fault : t.block.err ≠ 0x00#8) :
    p.rst = false ∧ p.cmdValid = true ∧ ∃ cause, t = { s with block := raiseFault cause p.cmd s.block } ∧
      ((cause = .illegalCommand ∧ ∃ why, decodeWord p.cmd = .illegal why) ∨
        (cause = .identityLocked ∧ s.block.idv = true ∧ ∃ id, decodeWord p.cmd = .command (.deci id))) := by
  rcases performPins_cases p s with
    ⟨-, ht⟩ | ⟨-, -, ht⟩ | ⟨-, -, frozen, -⟩ | ⟨hr, hv, -, illegal, ht⟩ | ⟨hr, hv, -, i, hd, hw, ht⟩
  · cases ht.symm.trans h
    exact absurd rfl fault
  · cases ht.symm.trans h
    exact absurd live fault
  · exact absurd live frozen
  · cases ht.symm.trans h
    exact ⟨hr, hv, .illegalCommand, rfl, .inl ⟨rfl, illegal⟩⟩
  · cases ht.symm.trans h
    obtain ⟨decoded, id, rfl, heffect⟩ := effectOf_fault live fault
    exact ⟨hr, hv, .identityLocked, by rw [heffect, hw], .inr ⟨rfl, decoded, id, hd⟩⟩

theorem faultCode_ne_zero (cause : FaultCause) : faultCode cause ≠ 0x00#8 := by cases cause <;> decide

/-- The ports of a block show the fault it has just taken. -/
theorem raiseFault_ports (cause : FaultCause) (w : CmdWord) (b : Block) :
    (raiseFault cause w b).ports.err = faultCode cause ∧ (raiseFault cause w b).ports.ecmd = some w ∧
      (raiseFault cause w b).ports.stat.getLsbD 7 = true := by
  have shown : (raiseFault cause w b).flt = true := bne_iff_ne.mpr (faultCode_ne_zero cause)
  obtain ⟨-, -, -, -, -, -, -, bit7⟩ := statusViewHasItsEightBits (raiseFault cause w b)
  exact ⟨rfl, shownWhen_of_true _ shown, bit7.trans (decide_eq_true (faultCode_ne_zero cause))⟩

/-! ## The `UnknownVendor` condition (R86) -/

theorem Block.unknownVendor_iff (b : Block) : b.unknownVendor = true ↔ b.idv = true ∧ b.vk = false := by
  simp [Block.unknownVendor]

theorem Block.SameIdentity.unknownVendor_eq {b c : Block} (h : b.SameIdentity c) :
    c.unknownVendor = b.unknownVendor := by
  obtain ⟨-, -, hvk, hidv⟩ := h
  rw [Block.unknownVendor, hvk, hidv, Block.unknownVendor]

/-! ## The obligations about the block -/

/-- Settles O9: one presentation in each of R87's five places; the conditions tell which. -/
theorem stepChecksInOrder : Obligations.StepChecksInOrder := by
  unfold Obligations.StepChecksInOrder
  intro b p rest
  rw [step_input rfl]
  refine ⟨fun hr => performPins_reset _ hr, fun hr _ frozen => performPins_frozen hr frozen,
    fun why hr hv live hd => ?_, fun id hr hv live hd decoded => ?_, fun i hr hv live hd undecoded => ?_⟩
  · rw [performPins_command _ hr hv, performWord_illegal _ hd, commit_live _ live]
    rfl
  · rw [performPins_command _ hr hv, performWord_command _ hd, exec_deci_later id live decoded,
      decodeWord_eq_command_iff.mp hd]
    rfl
  · rw [performPins_command _ hr hv, performWord_command _ hd]
    exact ⟨_, exec_live i live, exec_live i live, (effectOf_err_of_not_locked undecoded).trans live⟩

/-- Settles O23: the empty list raises nothing; a presentation that faults is `performPins_fault`, and the ports show what it
recorded. -/
theorem faultingStepRecordsAndWritesNothingElse : Obligations.FaultingStepRecordsAndWritesNothingElse := by
  unfold Obligations.FaultingStepRecordsAndWritesNothingElse
  intro s t live h fault
  cases hs : s.inputs with
  | nil =>
    cases (step_no_input hs).symm.trans h
    exact absurd live fault
  | cons p rest =>
    obtain ⟨hr, hv, cause, rfl, hcause⟩ :=
      performPins_fault (s := { s with inputs := rest }) live ((step_input hs).symm.trans h) fault
    obtain ⟨herr, hecmd, hstat⟩ := raiseFault_ports cause p.cmd s.block
    refine ⟨p, rest, rfl, hr, hv, rfl, herr, hecmd, hstat, ?_⟩
    rcases hcause with ⟨rfl, illegal⟩ | ⟨rfl, locked⟩
    · exact .inl ⟨rfl, illegal⟩
    · exact .inr ⟨rfl, locked⟩

/-- Settles O24: by induction on the steps, each of which only moves the list on; `Reset` gives the reset state. -/
theorem frozenBlockKeepsEverythingUntilReset : Obligations.FrozenBlockKeepsEverythingUntilReset := by
  unfold Obligations.FrozenBlockKeepsEverythingUntilReset
  refine ⟨fun k s frozen noReset => ⟨_, runSteps_frozen k frozen noReset, rfl, rfl⟩, fun s p rest _ hs hr => ?_⟩
  exact ⟨_, (step_input hs).trans (performPins_reset _ hr), rfl⟩

/-- Settles O26: the first `DECI` writes a vendor match that fails, and the identity is constant from then on. -/
theorem unknownVendorIsRaisedWithoutFaultAndStays : Obligations.UnknownVendorIsRaisedWithoutFaultAndStays := by
  unfold Obligations.UnknownVendorIsRaisedWithoutFaultAndStays
  refine ⟨fun b => ⟨b.unknownVendor_iff, ?_⟩, fun s id live undecoded unknown => ?_,
    fun k s t raised noReset run => ?_⟩
  · obtain ⟨-, -, -, -, -, -, bit6, -⟩ := statusViewHasItsEightBits b
    exact bit6
  · have noMatch : vendorKnown Config.knownVendorCodes (mfgField id) = false :=
      (vendorKnown_eq_decide _).trans (decide_eq_false unknown)
    exact ⟨_, exec_deci_first id live undecoded,
      (Block.unknownVendor_iff (s.block.writeIdentity _ _ _)).mpr ⟨rfl, noMatch⟩, live⟩
  · obtain ⟨decoded, -⟩ := s.block.unknownVendor_iff.mp raised
    exact (runSteps_keeps_identity decoded noReset run).unknownVendor_eq.trans raised

/-- Settles O22: the word presented is the word of the `DECI`, whose effect is the fault. -/
theorem secondDeciRaisesIdentityLocked : Obligations.SecondDeciRaisesIdentityLocked := by
  unfold Obligations.SecondDeciRaisesIdentityLocked
  intro b id rest live decoded
  refine (step_input rfl).trans ((performPins_encode (.deci id) live).trans ?_)
  rw [effectOf, identify_of_identity id decoded]
  rfl

/-- Settles O25. -/
theorem frozenBlockDropsEveryCommand : Obligations.FrozenBlockDropsEveryCommand := by
  unfold Obligations.FrozenBlockDropsEveryCommand
  exact fun i _ frozen => exec_frozen i frozen

/-! ## The block through a session's commands -/

/-- The block of a session just `Connected`: reset, one identity, 16-bit mode reported (R97, R98). -/
def connectedBlock (id : Byte) : Block := (identify id Block.reset).writeRes16 true

/-- The block after a sample: `DECT`, and `CVTF` of the same pair if the host converts (R99, R112). -/
def sampledBlock (convert : Bool) (c : TempCode) (b : Block) : Block :=
  if convert then (b.writeTemp c).writeFahr (fahrCode c) else b.writeTemp c

@[simp] theorem sampledBlock_temp (convert : Bool) (c : TempCode) (b : Block) :
    (sampledBlock convert c b).temp = some c := by cases convert <;> rfl
@[simp] theorem sampledBlock_tv (convert : Bool) (c : TempCode) (b : Block) :
    (sampledBlock convert c b).tv = true := by cases convert <;> rfl
@[simp] theorem sampledBlock_tsc (convert : Bool) (c : TempCode) (b : Block) :
    (sampledBlock convert c b).tsc = b.res16 := by cases convert <;> rfl
@[simp] theorem sampledBlock_idv (convert : Bool) (c : TempCode) (b : Block) :
    (sampledBlock convert c b).idv = b.idv := by cases convert <;> rfl
@[simp] theorem sampledBlock_res16 (convert : Bool) (c : TempCode) (b : Block) :
    (sampledBlock convert c b).res16 = b.res16 := by cases convert <;> rfl
@[simp] theorem sampledBlock_err (convert : Bool) (c : TempCode) (b : Block) :
    (sampledBlock convert c b).err = b.err := by cases convert <;> rfl

/-- Reset, identity, report and a converted sample, from any state: R98's and R99's commands (program P1). -/
theorem presentAll_document_sequence (s : State) (id msb lsb : Byte) :
    presentAll [Pins.reset, Pins.command (encode (.deci id)), Pins.command (encode (.cfg 0x80#8)),
        Pins.command (encode (.dect msb lsb)), Pins.command (encode (.cvtf msb lsb))] s =
      .next { s with block := sampledBlock true (imm16 msb lsb) (connectedBlock id) } := by
  rw [presentAll_cons_of_next _ (performPins_reset s Pins.reset_rst), presentAll_encode_cons (.deci id) _ rfl,
    presentAll_encode_cons (.cfg 0x80#8) _ rfl, presentAll_encode_cons (.dect msb lsb) _ rfl,
    presentAll_encode_cons (.cvtf msb lsb) _ rfl]
  rfl

/-! ## What a session has recorded and presented -/

theorem Session.records_of_trace {h k : Session} {doings : List Action} (ht : k.trace = h.trace ++ doings) :
    k.records = h.records ++ doings.filterMap Action.record? := by
  rw [Session.records, ht, List.filterMap_append, Session.records]

theorem Session.presented_of_trace {h k : Session} {doings : List Action} (ht : k.trace = h.trace ++ doings) :
    k.presented = h.presented ++ doings.filterMap Action.pins? := by
  rw [Session.presented, ht, List.filterMap_append, Session.presented]

/-- A command presented to a live block takes its effect there, and the event goes on. -/
theorem presentThen_command (i : Instr) {h : Session} (go : Session → HostResult)
    (live : h.machine.block.err = 0x00#8) :
    presentThen (Pins.command (encode i)) h go =
      go ({ h with machine := { h.machine with block := effectOf i h.machine.block } }.act
        (.present (Pins.command (encode i)))) :=
  presentThen_of_next go (performPins_encode i live)

/-! ## Connecting (R98) -/

/-- The connect record of an identity (R67, R101). -/
def connectRecord (time : Nat) (id : Byte) : Record :=
  .connect time (vendorName (vendorKnown Config.knownVendorCodes (mfgField id))) (some (mfgField id))
    (some (revField id))

/-- R98's actions, in its order. -/
def connectDoings (bus time : Nat) (id : Byte) : List Action :=
  [.present Pins.reset, .bus (.openHandle bus Config.i2cAddr), .bus readIdOp,
    .present (Pins.command (encode (.deci id))), .bus writeConfigOp,
    .present (Pins.command (encode (.cfg Config.cfgByte))), .record (connectRecord time id)]

/-- The session after a connect that succeeds. -/
def Session.afterConnect (time : Nat) (id : Byte) (h : Session) : Session :=
  { h with
    phase := .connected
    busOpen := true
    readBefore := false
    machine := { h.machine with block := connectedBlock id }
    trace := h.trace ++ connectDoings h.bus time id }

theorem connect_of_uninitialized (c : ConnectInputs) {h : Session} (hp : h.phase = .uninitialized) :
    connect c h =
      let h' := { h with machine := resetBlock h.machine }.act (.present Pins.reset)
      if c.opened then readIdentity c h'.openBus
      else finish (some (.connectError h'.openOp)) (h'.act (.bus h'.openOp)) := by
  simp only [connect, hp, presentThen_reset]

theorem connect_rejected (c : ConnectInputs) {h : Session} (hp : h.phase ≠ .uninitialized) :
    connect c h = .next (h, some .rejected) := by
  cases h' : h.phase <;> simp_all [connect, finish]

theorem connect_open_failed {c : ConnectInputs} {h : Session} (hp : h.phase = .uninitialized)
    (ho : c.opened = false) :
    connect c h =
      .next ({ h with
        machine := resetBlock h.machine
        trace := h.trace ++ [.present Pins.reset, .bus h.openOp] }, some (.connectError h.openOp)) := by
  rw [connect_of_uninitialized c hp]
  simp [ho, finish, Session.act, Session.openOp]

theorem connect_id_failed {c : ConnectInputs} {h : Session} (hp : h.phase = .uninitialized)
    (ho : c.opened = true) (hid : c.id = none) :
    connect c h =
      .next ({ h with
        busOpen := false
        machine := resetBlock h.machine
        trace := h.trace ++ [.present Pins.reset, .bus h.openOp, .bus readIdOp, .bus .closeHandle] },
        some (.connectError readIdOp)) := by
  rw [connect_of_uninitialized c hp]
  simp [ho, hid, readIdentity, connectFailed, finish, Session.act, Session.openOp, Session.openBus, Session.closeBus]

/-- With the handle open and the ID read, `DECI` is performed and the configuration comes next. -/
theorem connect_identified {c : ConnectInputs} {h : Session} {id : Byte} (hp : h.phase = .uninitialized)
    (ho : c.opened = true) (hid : c.id = some id) :
    connect c h =
      configure c { h with
        busOpen := true
        machine := { h.machine with block := identify id Block.reset }
        trace := h.trace ++ [.present Pins.reset, .bus h.openOp, .bus readIdOp,
          .present (Pins.command (encode (.deci id)))] } := by
  rw [connect_of_uninitialized c hp]
  simp only [ho, if_true, readIdentity, hid]
  rw [presentThen_command _ _ rfl]
  simp [effectOf, Session.act, Session.openOp, Session.openBus, resetBlock]

theorem connect_config_failed {c : ConnectInputs} {h : Session} {id : Byte} (hp : h.phase = .uninitialized)
    (ho : c.opened = true) (hid : c.id = some id) (hw : c.written = false) :
    connect c h =
      .next ({ h with
        busOpen := false
        machine := { h.machine with block := identify id Block.reset }
        trace := h.trace ++ [.present Pins.reset, .bus h.openOp, .bus readIdOp,
          .present (Pins.command (encode (.deci id))), .bus writeConfigOp, .bus .closeHandle] },
        some (.connectError writeConfigOp)) := by
  rw [connect_identified hp ho hid]
  simp [hw, configure, connectFailed, finish, Session.act, Session.closeBus]

theorem connect_succeeded {c : ConnectInputs} {h : Session} {id : Byte} (hp : h.phase = .uninitialized)
    (ho : c.opened = true) (hid : c.id = some id) (hw : c.written = true) :
    connect c h = .next (h.afterConnect c.time id, none) := by
  rw [connect_identified hp ho hid]
  simp only [configure, hw, if_true]
  rw [presentThen_command _ _ rfl, checkErr_live _ _ rfl]
  simp only [connected, finish, Session.act, List.append_assoc]
  rfl

/-! ## Reading once (R94, R99) -/

theorem readOnce_of_pollable (r : ReadInputs) {h : Session} (hp : h.phase = .connected ∨ h.phase = .polling) :
    readOnce r h = readPair r h := by
  rcases hp with hp | hp <;> simp only [readOnce, hp]

theorem readOnce_rejected (r : ReadInputs) {h : Session} (hp : h.phase = .uninitialized ∨ h.phase = .disconnected) :
    readOnce r h = .next (h, some .rejected) := by
  rcases hp with hp | hp <;> simp only [readOnce, hp, finish]

/-- The transaction a failed read reports: the first of the two that failed. -/
def failedReadOp (r : ReadInputs) : BusOp :=
  .readByte (if r.msb = none then Config.regTempMsb else Config.regTempLsb)

/-- The reads tried, up to the failed one. -/
def attemptedReads (r : ReadInputs) : List Action :=
  if r.msb = none then [.bus readMsbOp] else [.bus readMsbOp, .bus readLsbOp]

theorem attemptedReads_records (r : ReadInputs) : (attemptedReads r).filterMap Action.record? = [] := by
  unfold attemptedReads
  split <;> rfl

theorem attemptedReads_pins (r : ReadInputs) : (attemptedReads r).filterMap Action.pins? = [] := by
  unfold attemptedReads
  split <;> rfl

/-- The session after a failed read. -/
def Session.afterFailedRead (r : ReadInputs) (h : Session) : Session :=
  { h with
    phase := phaseAfterReadError r h.readBefore h.phase
    readBefore := true
    trace := h.trace ++ attemptedReads r }

theorem readOnce_failed {r : ReadInputs} {h : Session} (hp : h.phase = .connected ∨ h.phase = .polling)
    (hf : r.msb = none ∨ r.lsb = none) :
    readOnce r h = .next (h.afterFailedRead r, some (.readError (failedReadOp r))) := by
  rw [readOnce_of_pollable r hp]
  simp only [readPair, readFailed, finish, Session.act, Session.afterFailedRead, attemptedReads, failedReadOp]
  cases hm : r.msb with
  | none => simp [readMsbOp]
  | some msb =>
    have hl : r.lsb = none := by simpa [hm] using hf
    simp [hl, readLsbOp]

@[simp] theorem Session.afterFailedRead_records (r : ReadInputs) (h : Session) :
    (h.afterFailedRead r).records = h.records := by
  rw [Session.records_of_trace (h := h) rfl, attemptedReads_records, List.append_nil]

@[simp] theorem Session.afterFailedRead_presented (r : ReadInputs) (h : Session) :
    (h.afterFailedRead r).presented = h.presented := by
  rw [Session.presented_of_trace (h := h) rfl, attemptedReads_pins, List.append_nil]

/-- A failed read leaves the state, or takes a first one's `Connected` to `Polling`. -/
theorem Session.afterFailedRead_phase (r : ReadInputs) (h : Session) :
    (h.afterFailedRead r).phase = h.phase ∨ (h.afterFailedRead r).phase = .polling := by
  rcases phaseAfterReadError_cases r h.readBefore h.phase with same | ⟨-, -, -, polls⟩
  · exact .inl same
  · exact .inr polls

/-- The record of a sample, as the ports show it after its commands (R99, R101). -/
def sampleRecord (r : ReadInputs) (c : TempCode) (scaleOk : Bool) : Record :=
  .sample r.time (some c) (some scaleOk) (if r.convert then some (fahrCode c) else none)

/-- The presentations of a sample: `DECT`, and `CVTF` if the host converts. -/
def samplePresentations (convert : Bool) (msb lsb : Byte) : List Action :=
  .present (Pins.command (encode (.dect msb lsb))) ::
    if convert then [.present (Pins.command (encode (.cvtf msb lsb)))] else []

/-- What the host does for a sample: both reads, the presentations, the record. -/
def sampleDoings (r : ReadInputs) (msb lsb : Byte) (scaleOk : Bool) : List Action :=
  [.bus readMsbOp, .bus readLsbOp] ++ samplePresentations r.convert msb lsb ++
    [.record (sampleRecord r (imm16 msb lsb) scaleOk)]

/-- The session after a sample, before the Publisher's part. -/
def Session.afterSample (r : ReadInputs) (msb lsb : Byte) (h : Session) : Session :=
  { h with
    phase := .polling
    readBefore := true
    machine := { h.machine with block := sampledBlock r.convert (imm16 msb lsb) h.machine.block }
    trace := h.trace ++ sampleDoings r msb lsb h.machine.block.res16 }

/-- On a live block both commands are performed, and the look at `err` finds no fault. -/
theorem presentSample_live (r : ReadInputs) (msb lsb : Byte) {h : Session} (live : h.machine.block.err = 0x00#8) :
    presentSample r msb lsb h =
      recordSample r { h with
        machine := { h.machine with block := sampledBlock r.convert (imm16 msb lsb) h.machine.block }
        trace := h.trace ++ samplePresentations r.convert msb lsb } := by
  refine Eq.trans (presentThen_command (.dect msb lsb) _ live) ?_
  cases r.convert with
  | true =>
    rw [if_pos rfl]
    refine Eq.trans (presentThen_command (.cvtf msb lsb) _ live) (Eq.trans (checkErr_live _ _ live) ?_)
    simp only [Session.act, List.append_assoc]
    rfl
  | false => exact checkErr_live _ _ live

theorem sampledBlock_ports (r : ReadInputs) (c : TempCode) (b : Block) :
    (sampledBlock r.convert c b).ports.temp = some c ∧
      (sampledBlock r.convert c b).ports.tempScaleOk = some b.res16 ∧
      (if r.convert then (sampledBlock r.convert c b).ports.fahr else none) =
        if r.convert then some (fahrCode c) else none := by
  cases r.convert <;> exact ⟨rfl, rfl, rfl⟩

theorem readOnce_sampled {r : ReadInputs} {h : Session} {msb lsb : Byte}
    (hp : h.phase = .connected ∨ h.phase = .polling) (live : h.machine.block.err = 0x00#8)
    (hm : r.msb = some msb) (hl : r.lsb = some lsb) :
    readOnce r h = publishSample r (h.afterSample r msb lsb) := by
  obtain ⟨temp, scale, fahr⟩ := sampledBlock_ports r (imm16 msb lsb) h.machine.block
  rw [readOnce_of_pollable r hp]
  simp only [readPair, hm, hl]
  refine Eq.trans (presentSample_live r msb lsb live) ?_
  simp [recordSample, temp, scale, fahr, Session.act, Session.afterSample, sampleDoings, sampleRecord]

@[simp] theorem Session.afterSample_records (r : ReadInputs) (msb lsb : Byte) (h : Session) :
    (h.afterSample r msb lsb).records =
      h.records ++ [sampleRecord r (imm16 msb lsb) h.machine.block.res16] := by
  rw [Session.records_of_trace (h := h) rfl, sampleDoings]
  cases r.convert <;> rfl

/-- After its sample a `read_once` only adds doings that record nothing, and reports nothing but a failed publishing. -/
theorem readOnce_sampled_cases {r : ReadInputs} {h : Session} {msb lsb : Byte}
    (hp : h.phase = .connected ∨ h.phase = .polling) (live : h.machine.block.err = 0x00#8)
    (hm : r.msb = some msb) (hl : r.lsb = some lsb) :
    ∃ k e, readOnce r h = .next (k, e) ∧ k.phase = .polling ∧
      k.machine = (h.afterSample r msb lsb).machine ∧ k.records = (h.afterSample r msb lsb).records ∧
      (e = none ∨ (e = some .publishError ∧ r.publish = some false)) := by
  rw [readOnce_sampled hp live hm hl]
  obtain ⟨doings, e, hk, hcases⟩ := publishSample_cases r (h.afterSample r msb lsb)
  refine ⟨_, e, hk, rfl, rfl, ?_, ?_⟩
  · rw [Session.records_of_trace (h := h.afterSample r msb lsb) rfl]
    rcases hcases with ⟨-, rfl, -⟩ | ⟨-, -, rfl⟩ | ⟨-, -, rfl⟩ <;> exact List.append_nil _
  · rcases hcases with ⟨-, -, he⟩ | ⟨-, he, -⟩ | ⟨hpub, he, -⟩
    · exact .inl he
    · exact .inl he
    · exact .inr ⟨he, hpub⟩

/-! ## Disconnecting (R100) -/

/-- The session after a disconnect from `Connected` or `Polling`. -/
def Session.ended (time : Nat) (h : Session) : Session :=
  { h.closeBus with phase := .disconnected }.act (.record (.disconnect time))

@[simp] theorem Session.ended_phase (time : Nat) (h : Session) : (h.ended time).phase = .disconnected := rfl
@[simp] theorem Session.ended_busOpen (time : Nat) (h : Session) : (h.ended time).busOpen = false := rfl
@[simp] theorem Session.ended_machine (time : Nat) (h : Session) : (h.ended time).machine = h.machine := rfl

theorem Session.ended_trace (time : Nat) (h : Session) :
    (h.ended time).trace = h.trace ++ [.bus .closeHandle, .record (.disconnect time)] :=
  List.append_assoc _ _ _

@[simp] theorem Session.ended_records (time : Nat) (h : Session) :
    (h.ended time).records = h.records ++ [.disconnect time] :=
  Session.records_of_trace (h.ended_trace time)

@[simp] theorem Session.ended_presented (time : Nat) (h : Session) : (h.ended time).presented = h.presented :=
  (Session.presented_of_trace (h.ended_trace time)).trans (List.append_nil _)

theorem disconnect_of_pollable (time : Nat) {h : Session} (hp : h.phase = .connected ∨ h.phase = .polling) :
    disconnect time h = .next (h.ended time, none) := by
  rcases hp with hp | hp <;> simp only [disconnect, hp, finish, Session.ended]

theorem disconnect_of_disconnected (time : Nat) {h : Session} (hp : h.phase = .disconnected) :
    disconnect time h = .next (h, none) := by
  simp only [disconnect, hp, finish]

theorem endLoop_of_pollable (why : Option HostError) (time : Nat) {h : Session}
    (hp : h.phase = .connected ∨ h.phase = .polling) : endLoop why time h = .next (h.ended time, why) := by
  simp only [endLoop, disconnect_of_pollable time hp, finish]

/-- No call changes a disconnected session. -/
theorem hostEvents_of_disconnected (es : List HostEvent) {h : Session} (hp : h.phase = .disconnected) :
    hostEvents es h = .next (h, none) := by
  induction es with
  | nil => rfl
  | cons e es ih =>
    have unchanged : ∃ err, hostEvent e h = .next (h, err) := by
      cases e with
      | connect c => exact ⟨_, connect_rejected c (by simp [hp])⟩
      | readOnce r => exact ⟨_, readOnce_rejected r (.inr hp)⟩
      | disconnect time => exact ⟨_, disconnect_of_disconnected time hp⟩
    obtain ⟨err, he⟩ := unchanged
    simp only [hostEvents, he, ih]

/-! ## The polling loop (R99, R102) -/

/-- After a `read_once` the loop survives, it goes on with the rest. -/
theorem pollLoop_continues {publishOnly : Bool} {r : ReadInputs} {h k : Session} {e : Option HostError}
    (rest : List ReadInputs) (time : Nat) (hr : readOnce r h = .next (k, e))
    (goesOn : keepsPolling publishOnly e = true) :
    pollLoop publishOnly (r :: rest) time h = pollLoop publishOnly rest time (waitBefore rest k) := by
  simp only [pollLoop, hr, goesOn, if_true]

/-- After any other it logs and disconnects, whatever reads are left. -/
theorem pollLoop_ends {publishOnly : Bool} {r : ReadInputs} {h k : Session} {e : Option HostError}
    (rest : List ReadInputs) (time : Nat) (hr : readOnce r h = .next (k, e))
    (stops : keepsPolling publishOnly e = false) (hp : k.phase = .connected ∨ k.phase = .polling) :
    pollLoop publishOnly (r :: rest) time h = .next ((logEnd e k).ended time, e) := by
  obtain ⟨phase, -⟩ := logEnd_fields e k
  have ended := endLoop_of_pollable e time (h := logEnd e k) (by rwa [phase])
  simp only [pollLoop, hr, stops, Bool.false_eq_true, if_false, ended]

theorem waitBefore_fields (rest : List ReadInputs) (h : Session) :
    (waitBefore rest h).phase = h.phase ∧ (waitBefore rest h).machine = h.machine ∧
      (waitBefore rest h).records = h.records := by
  unfold waitBefore
  split
  · exact ⟨rfl, rfl, rfl⟩
  · exact ⟨rfl, rfl, Session.records_act h rfl⟩

/-- What the bus and the Publisher answer in a `read_once` whose reads both succeed: the pair, the time, whether the host
converts, the Publisher's answer. -/
abbrev GoodRead := Byte × Byte × Nat × Bool × Option Bool

/-- The inputs of such a `read_once`. -/
def GoodRead.inputs (q : GoodRead) : ReadInputs :=
  { msb := some q.1, lsb := some q.2.1, time := q.2.2.1, convert := q.2.2.2.1, publish := q.2.2.2.2,
    failedFirstPolls := false }

/-- The record of its sample. -/
def GoodRead.record (scaleOk : Bool) (q : GoodRead) : Record := sampleRecord q.inputs (imm16 q.1 q.2.1) scaleOk

/-- A loop of good reads records a sample a read and then its disconnect. -/
theorem pollLoop_good_reads (publishOnly : Bool) (time : Nat) (reads : List GoodRead) :
    ∀ {h : Session}, (h.phase = .connected ∨ h.phase = .polling) → h.machine.block.err = 0x00#8 →
      (publishOnly = false ∨ ∀ q ∈ reads, q.2.2.2.2 ≠ some false) →
      ∃ k, pollLoop publishOnly (reads.map GoodRead.inputs) time h = .next (k, none) ∧
        k.phase = .disconnected ∧ k.busOpen = false ∧ k.machine.block.err = 0x00#8 ∧
        k.records = h.records ++ reads.map (GoodRead.record h.machine.block.res16) ++ [Record.disconnect time] := by
  induction reads with
  | nil =>
    intro h hp live _
    exact ⟨h.ended time, endLoop_of_pollable none time hp, rfl, rfl, live, by simp⟩
  | cons q reads ih =>
    intro h hp live purpose
    obtain ⟨k, e, hr, kphase, kmachine, krecords, he⟩ :=
      readOnce_sampled_cases (r := q.inputs) (msb := q.1) (lsb := q.2.1) hp live rfl rfl
    have goesOn : keepsPolling publishOnly e = true := by
      rcases he with rfl | ⟨rfl, failed⟩
      · rfl
      · rcases purpose with rfl | allTaken
        · rfl
        · exact absurd failed (allTaken q List.mem_cons_self)
    obtain ⟨wphase, wmachine, wrecords⟩ := waitBefore_fields (reads.map GoodRead.inputs) k
    have wblock : (waitBefore (reads.map GoodRead.inputs) k).machine.block =
        sampledBlock q.inputs.convert (imm16 q.1 q.2.1) h.machine.block := by
      rw [wmachine, kmachine]
      rfl
    obtain ⟨l, hl, lphase, lbus, llive, lrecords⟩ := ih (h := waitBefore (reads.map GoodRead.inputs) k)
      (.inr (wphase.trans kphase)) (by rw [wblock, sampledBlock_err, live])
      (purpose.imp_right fun allTaken p hmem => allTaken p (List.mem_cons_of_mem q hmem))
    refine ⟨l, (pollLoop_continues _ time hr goesOn).trans hl, lphase, lbus, llive, ?_⟩
    rw [lrecords, wblock, sampledBlock_res16, wrecords, krecords, Session.afterSample_records]
    simp [GoodRead.record]

/-- A request that fails is made with the sample's value and then logged. -/
theorem readOnce_publish_failed {r : ReadInputs} {h : Session} {msb lsb : Byte}
    (hp : h.phase = .connected ∨ h.phase = .polling) (live : h.machine.block.err = 0x00#8)
    (hm : r.msb = some msb) (hl : r.lsb = some lsb) (hpub : r.publish = some false) :
    readOnce r h =
      .next ({ h.afterSample r msb lsb with
        trace := (h.afterSample r msb lsb).trace ++
          [.publish r.time (some (imm16 msb lsb)) (some h.machine.block.res16), .logFailure .publishError] },
        some .publishError) := by
  obtain ⟨temp, scale, -⟩ := sampledBlock_ports r (imm16 msb lsb) h.machine.block
  rw [readOnce_sampled hp live hm hl, ← temp, ← scale]
  simp only [publishSample, hpub, finish, Session.act, List.append_assoc]
  rfl

/-! ## What every call keeps (R97, R101) -/

/-- R97's table and R101's order. -/
structure Session.Kept (h : Session) : Prop where
  correspondence : h.Matches
  ordered : RecordsInOrder h

/-- What a session that has connected and may poll has in common in both its states: an identified, reporting, live block, the
flags of its samples, and a connect record before them. -/
structure Session.Sampling (h : Session) : Prop where
  idv : h.machine.block.idv = true
  res16 : h.machine.block.res16 = true
  flags : SampleFlags h
  live : h.machine.block.err = 0x00#8
  records : ∃ c samples, (∃ t v m r, c = Record.connect t v m r) ∧
    (∀ x ∈ samples, ∃ t d o f, x = Record.sample t d o f) ∧ h.records = c :: samples

theorem Session.kept_of_uninitialized {h : Session} (hp : h.phase = .uninitialized)
    (block : h.presented = [] ∨ OnTheWayToConnected h.machine.block) (records : h.records = []) : h.Kept :=
  ⟨by simpa only [Session.Matches, hp] using block, by simpa only [RecordsInOrder, hp] using records⟩

theorem Session.Kept.records_of_uninitialized {h : Session} (kept : h.Kept) (hp : h.phase = .uninitialized) :
    h.records = [] := by
  simpa only [RecordsInOrder, hp] using kept.ordered

theorem Session.Kept.sampling {h : Session} (kept : h.Kept) (hp : h.phase = .connected ∨ h.phase = .polling) :
    h.Sampling := by
  obtain ⟨block, records⟩ := kept
  rcases hp with hp | hp <;> simp only [Session.Matches, RecordsInOrder, hp] at block records
  · obtain ⟨idv, res16, noSample, live⟩ := block
    obtain ⟨c, ⟨t, v, m, r, rfl⟩, hrec⟩ := records
    exact ⟨idv, res16, by simpa [SampleFlags, hrec, Record.isSample] using noSample, live, _, [],
      ⟨t, v, m, r, rfl⟩, by simp, hrec⟩
  · obtain ⟨idv, res16, flags, live⟩ := block
    exact ⟨idv, res16, flags, live, records⟩

theorem Session.Sampling.kept_of_polling {h : Session} (s : h.Sampling) (hp : h.phase = .polling) : h.Kept := by
  obtain ⟨idv, res16, flags, live, records⟩ := s
  constructor
  · simp only [Session.Matches, hp]
    exact ⟨idv, res16, flags, live⟩
  · simpa only [RecordsInOrder, hp] using records

/-- The claims depend on the block and the records only. -/
theorem Session.Sampling.congr {h k : Session} (s : h.Sampling) (block : k.machine.block = h.machine.block)
    (records : k.records = h.records) : k.Sampling := by
  obtain ⟨idv, res16, flags, live, recs⟩ := s
  rw [SampleFlags, ← block, ← records] at flags
  rw [← block] at idv res16 live
  rw [← records] at recs
  exact ⟨idv, res16, flags, live, recs⟩

theorem Session.Kept.congr_of_pollable {h k : Session} (kept : h.Kept)
    (hp : h.phase = .connected ∨ h.phase = .polling) (phase : k.phase = h.phase)
    (block : k.machine.block = h.machine.block) (records : k.records = h.records) : k.Kept := by
  obtain ⟨matched, ordered⟩ := kept
  rcases hp with hp | hp
  · simp only [Session.Matches, RecordsInOrder, hp] at matched ordered
    constructor <;> simpa only [Session.Matches, RecordsInOrder, phase, hp, block, records]
  · have sampling := Session.Kept.sampling ⟨matched, ordered⟩ (.inr hp)
    exact (sampling.congr block records).kept_of_polling (phase.trans hp)

/-- A sample sets its flags and is recorded after the others. -/
theorem Session.Sampling.afterSample {h : Session} (s : h.Sampling) (r : ReadInputs) (msb lsb : Byte) :
    (h.afterSample r msb lsb).Sampling := by
  obtain ⟨idv, res16, -, live, c, samples, hc, hsamples, hrec⟩ := s
  have block : (h.afterSample r msb lsb).machine.block =
      sampledBlock r.convert (imm16 msb lsb) h.machine.block := rfl
  refine ⟨by rw [block, sampledBlock_idv, idv], by rw [block, sampledBlock_res16, res16], ?_,
    by rw [block, sampledBlock_err, live], c,
    samples ++ [sampleRecord r (imm16 msb lsb) h.machine.block.res16], hc, ?_, ?_⟩
  · simp [SampleFlags, block, res16, sampleRecord, Record.isSample]
  · intro x hx
    rcases List.mem_append.mp hx with old | new
    · exact hsamples x old
    · exact ⟨_, _, _, _, List.mem_singleton.mp new⟩
  · rw [Session.afterSample_records, hrec, List.cons_append]

/-- A disconnect's record is no sample's, and nothing is presented after it. -/
theorem Session.Sampling.kept_ended {h : Session} (s : h.Sampling) (time : Nat) : (h.ended time).Kept := by
  obtain ⟨idv, res16, flags, live, c, samples, hc, hsamples, hrec⟩ := s
  refine ⟨⟨idv, res16, ?_, live, h.trace, time, h.ended_trace time⟩, c, samples, .disconnect time, hc, hsamples,
    ⟨time, rfl⟩, ?_⟩
  · simpa [SampleFlags, Record.isSample] using flags
  · rw [Session.ended_records, hrec]

/-! ## Every call keeps it -/

theorem Session.start_kept (bus : Nat) (m : State) : (Session.start bus m).Kept :=
  Session.kept_of_uninitialized rfl (.inl rfl) rfl

theorem Session.afterConnect_kept (time : Nat) (id : Byte) {h : Session} (fresh : h.records = []) :
    (h.afterConnect time id).Kept := by
  refine ⟨⟨rfl, rfl, rfl, rfl⟩, connectRecord time id, ⟨_, _, _, _, rfl⟩, ?_⟩
  rw [Session.records_of_trace (h := h) rfl, fresh]
  rfl

theorem connect_keeps (c : ConnectInputs) {h : Session} (kept : h.Kept) :
    ∃ k e, connect c h = .next (k, e) ∧ k.Kept := by
  by_cases hp : h.phase = .uninitialized
  · have fresh := kept.records_of_uninitialized hp
    have stillFresh {k : Session} {doings : List Action} (ht : k.trace = h.trace ++ doings)
        (hd : doings.filterMap Action.record? = []) : k.records = [] := by
      rw [Session.records_of_trace ht, fresh, hd, List.append_nil]
    cases ho : c.opened with
    | false =>
      exact ⟨_, _, connect_open_failed hp ho,
        Session.kept_of_uninitialized hp (.inr (.inl rfl)) (stillFresh rfl rfl)⟩
    | true =>
      cases hid : c.id with
      | none =>
        exact ⟨_, _, connect_id_failed hp ho hid,
          Session.kept_of_uninitialized hp (.inr (.inl rfl)) (stillFresh rfl rfl)⟩
      | some id =>
        cases hw : c.written with
        | false =>
          exact ⟨_, _, connect_config_failed hp ho hid hw,
            Session.kept_of_uninitialized hp (.inr (.inr ⟨id, rfl⟩)) (stillFresh rfl rfl)⟩
        | true => exact ⟨_, _, connect_succeeded hp ho hid hw, Session.afterConnect_kept c.time id fresh⟩
  · exact ⟨_, _, connect_rejected c hp, kept⟩

theorem phase_pollable_or (p : SessionState) :
    (p = .connected ∨ p = .polling) ∨ (p = .uninitialized ∨ p = .disconnected) := by
  cases p <;> simp

theorem readOnce_keeps (r : ReadInputs) {h : Session} (kept : h.Kept) :
    ∃ k e, readOnce r h = .next (k, e) ∧ k.Kept := by
  rcases phase_pollable_or h.phase with hp | hp
  · have sampling := kept.sampling hp
    by_cases hf : r.msb = none ∨ r.lsb = none
    · refine ⟨_, _, readOnce_failed hp hf, ?_⟩
      rcases h.afterFailedRead_phase r with same | polls
      · exact kept.congr_of_pollable hp same rfl (h.afterFailedRead_records r)
      · exact (sampling.congr (k := h.afterFailedRead r) rfl (h.afterFailedRead_records r)).kept_of_polling polls
    · obtain ⟨hm, hl⟩ := not_or.mp hf
      obtain ⟨msb, hm⟩ := Option.ne_none_iff_exists'.mp hm
      obtain ⟨lsb, hl⟩ := Option.ne_none_iff_exists'.mp hl
      obtain ⟨k, e, hr, kphase, kmachine, krecords, -⟩ := readOnce_sampled_cases hp sampling.live hm hl
      have sampled := (sampling.afterSample r msb lsb).congr (congrArg State.block kmachine) krecords
      exact ⟨k, e, hr, sampled.kept_of_polling kphase⟩
  · exact ⟨_, _, readOnce_rejected r hp, kept⟩

theorem disconnect_keeps (time : Nat) {h : Session} (kept : h.Kept) :
    ∃ k e, disconnect time h = .next (k, e) ∧ k.Kept := by
  rcases disconnect_cases time h with ⟨hp, hd⟩ | ⟨-, hd⟩
  · exact ⟨_, _, hd, (kept.sampling hp).kept_ended time⟩
  · exact ⟨_, _, hd, kept⟩

theorem hostEvent_keeps (e : HostEvent) {h : Session} (kept : h.Kept) :
    ∃ k err, hostEvent e h = .next (k, err) ∧ k.Kept := by
  cases e with
  | connect c => exact connect_keeps c kept
  | readOnce r => exact readOnce_keeps r kept
  | disconnect time => exact disconnect_keeps time kept

/-- Every sequence of calls completes and keeps it. -/
theorem hostEvents_keeps (es : List HostEvent) :
    ∀ {h : Session}, h.Kept → ∃ k err, hostEvents es h = .next (k, err) ∧ k.Kept := by
  induction es with
  | nil => exact fun {h} kept => ⟨h, none, rfl, kept⟩
  | cons e es ih =>
    intro h kept
    obtain ⟨k, err, he, kkept⟩ := hostEvent_keeps e kept
    simpa only [hostEvents, he] using ih kkept

/-! ## The obligations about the sequence and the session -/

/-- Settles O44: the sequence's block is `sampledBlock` of `connectedBlock`, whose sample is confirmed. -/
theorem documentsSequenceEndsWell : Obligations.DocumentsSequenceEndsWell := by
  unfold Obligations.DocumentsSequenceEndsWell
  intro s id msb lsb
  have run := presentAll_document_sequence s id msb lsb
  refine ⟨⟨rfl, _, run, rfl⟩, _, run, ?_, meansCelsius_iff_of_confirmed rfl rfl rfl,
    Block.celsius_of_confirmed rfl rfl rfl, Block.celsius_without_premise _,
    Block.fahrenheit_writeFahr_fahrCode _ _⟩
  have vendor : (sampledBlock true (imm16 msb lsb) (connectedBlock id)).vk = decide (id.extractLsb' 3 5 = 0b11001#5) :=
    vendorKnown_eq_decide _
  rw [← vendor]
  rfl

/-- Settles O45: a new session is uninitialized, so `connect_succeeded` has the trace and the block. -/
theorem successfulConnectFollowsTheSequence : Obligations.SuccessfulConnectFollowsTheSequence := by
  unfold Obligations.SuccessfulConnectFollowsTheSequence
  intro bus m id time
  refine ⟨_, connect_succeeded rfl rfl rfl rfl, rfl, rfl, ?_, rfl, rfl, rfl, rfl⟩
  have name : vendorName (vendorKnown Config.knownVendorCodes (mfgField id)) =
      if id.extractLsb' 3 5 = 0b11001#5 then "Analog Devices" else "unknown" := by
    simp only [vendorName, vendorKnown_iff]
    rfl
  rw [← name]
  rfl

/-- Settles O46: one equation for each transaction that can fail. -/
theorem failedConnectPresentsOnlyWhatCameBefore : Obligations.FailedConnectPresentsOnlyWhatCameBefore := by
  unfold Obligations.FailedConnectPresentsOnlyWhatCameBefore
  intro bus m c hfail
  cases ho : c.opened with
  | false => exact ⟨_, _, connect_open_failed rfl ho, rfl, rfl, rfl, rfl, fun _ => rfl, nofun⟩
  | true =>
    cases hid : c.id with
    | none => exact ⟨_, _, connect_id_failed rfl ho hid, rfl, rfl, rfl, rfl, fun _ => rfl, nofun⟩
    | some id =>
      have hw : c.written = false := by simpa [ho, hid] using hfail
      refine ⟨_, _, connect_config_failed rfl ho hid hw, rfl, rfl, rfl, rfl, nofun, ?_⟩
      rintro _ - ⟨⟩
      rfl

/-- Settles O47: the table is half of `Session.Kept`, which a new session meets and every call keeps. -/
theorem sessionsKeepTheCorrespondence : Obligations.SessionsKeepTheCorrespondence := by
  unfold Obligations.SessionsKeepTheCorrespondence
  intro bus m es
  obtain ⟨h, e, run, kept⟩ := hostEvents_keeps es (Session.start_kept bus m)
  exact ⟨h, e, run, kept.correspondence⟩

/-- Settles O48: the order is the other half of it. -/
theorem recordsAreInOrder : Obligations.RecordsAreInOrder := by
  unfold Obligations.RecordsAreInOrder
  intro bus m es
  obtain ⟨h, e, run, kept⟩ := hostEvents_keeps es (Session.start_kept bus m)
  exact ⟨h, e, run, kept.ordered⟩

/-- Settles O49: `pollLoop_good_reads`, with the inputs and the record of a read written out. -/
theorem pollingLoopRecordsEverySample : Obligations.PollingLoopRecordsEverySample := by
  unfold Obligations.PollingLoopRecordsEverySample
  exact fun h publishOnly time reads hp live purpose => pollLoop_good_reads publishOnly time reads hp live purpose

/-- Settles O50: the failed read is `readOnce_failed`; the loop logs its error and ends. -/
theorem failedReadPresentsNothingAndEndsTheLoop : Obligations.FailedReadPresentsNothingAndEndsTheLoop := by
  unfold Obligations.FailedReadPresentsNothingAndEndsTheLoop
  intro h r rest publishOnly time hp hf
  have hr := readOnce_failed hp hf
  have pollable : (h.afterFailedRead r).phase = .connected ∨ (h.afterFailedRead r).phase = .polling := by
    rcases h.afterFailedRead_phase r with same | polls
    · rwa [same]
    · exact .inr polls
  obtain ⟨-, lmachine, -, lrecords, lpresented⟩ :=
    logEnd_fields (some (.readError (failedReadOp r))) (h.afterFailedRead r)
  refine ⟨.readError (failedReadOp r), rfl,
    ⟨_, hr, rfl, h.afterFailedRead_presented r, h.afterFailedRead_records r, rfl, fun again => ?_,
      h.afterFailedRead_phase r⟩,
    ⟨_, pollLoop_ends rest time hr rfl pollable, lmachine, ?_, rfl, rfl, ?_, ?_⟩⟩
  · exact phaseAfterReadError_same r (again.imp_right fun polling => by simp [polling])
  · rw [Session.ended_presented, lpresented, Session.afterFailedRead_presented]
  · simp [Session.ended_trace, logEnd]
  · rw [Session.ended_records, lrecords, Session.afterFailedRead_records]

/-- Settles O51: a disconnect ends in `Disconnected`, where every call answers the session it was given. -/
theorem disconnectIsIdempotentAndFinal : Obligations.DisconnectIsIdempotentAndFinal := by
  unfold Obligations.DisconnectIsIdempotentAndFinal
  intro h time later r hp
  exact ⟨h.ended time, disconnect_of_pollable time hp, rfl, rfl, rfl, h.ended_presented time,
    disconnect_of_disconnected later rfl, readOnce_rejected r (.inr rfl), fun es => hostEvents_of_disconnected es rfl⟩

/-- Settles O52: with and without a Publisher the sample is `Session.afterSample`; the failed request adds two doings that
record nothing. -/
theorem publishErrorAbandonsOnlyThePublishing : Obligations.PublishErrorAbandonsOnlyThePublishing := by
  unfold Obligations.PublishErrorAbandonsOnlyThePublishing
  intro h r msb lsb rest time hp live hm hl hpub
  have failed := readOnce_publish_failed hp live hm hl hpub
  have quiet : readOnce { r with publish := none } h = .next (h.afterSample r msb lsb, none) :=
    readOnce_sampled hp live hm hl
  exact ⟨_, _, failed, quiet, rfl, rfl, (Session.records_of_trace rfl).trans (List.append_nil _),
    sampledBlock_temp _ _ _, rfl, pollLoop_continues rest time failed rfl,
    _, pollLoop_ends rest time failed rfl (.inr rfl), rfl, rfl, rfl, Session.ended_records _ _⟩

end Sys2Proof.Machine
end

section
/-! PROOFS. The statements of 70_reset_and_hazards.md: the reset state and what only `Reset` clears, a new session's
identity, a stale conversion beside a new sample, and a host that looks at `err` (R104, R105, R111 to R113). -/

namespace Sys2Proof.Machine

/-! ## What only `Reset` undoes (R104) -/

theorem Block.reset_stat : Block.reset.stat = 0x00#8 := by decide

/-- What `b` has, `c` has too: a valid flag, the locked identity, a fault. -/
def Block.LatchedIn (b c : Block) : Prop :=
  (b.tv = true → c.tv = true) ∧ (b.idv = true → c.idv = true) ∧ (b.fv = true → c.fv = true) ∧
    (b.err ≠ 0x00#8 → c.err ≠ 0x00#8)

theorem Block.LatchedIn.refl (b : Block) : b.LatchedIn b := ⟨id, id, id, id⟩

theorem Block.LatchedIn.trans {a b c : Block} (hab : a.LatchedIn b) (hbc : b.LatchedIn c) : a.LatchedIn c := by
  obtain ⟨tv₁, idv₁, fv₁, err₁⟩ := hab
  obtain ⟨tv₂, idv₂, fv₂, err₂⟩ := hbc
  exact ⟨tv₂ ∘ tv₁, idv₂ ∘ idv₁, fv₂ ∘ fv₁, err₂ ∘ err₁⟩

theorem Block.LatchedIn.raiseFault (cause : FaultCause) (w : CmdWord) (b : Block) :
    b.LatchedIn (Machine.raiseFault cause w b) := ⟨id, id, id, fun _ => faultCode_ne_zero cause⟩

/-- Every command writes a valid flag as 1 or not at all, and `ERR` as a fault's code or not at all. -/
theorem Block.LatchedIn.effectOf (i : Instr) (b : Block) : b.LatchedIn (Machine.effectOf i b) := by
  cases i with
  | nop => exact .refl b
  | dect msb lsb => exact ⟨fun _ => rfl, id, id, id⟩
  | deci byte =>
    rw [Machine.effectOf]
    rcases identify_cases byte b with ⟨-, hb⟩ | ⟨-, hb⟩ <;> rw [hb]
    · exact .raiseFault _ _ b
    · exact ⟨id, fun _ => rfl, id, id⟩
  | cvtf hi lo => exact ⟨id, id, fun _ => rfl, id⟩
  | cfg byte => exact ⟨id, id, id, id⟩

theorem performPins_latches {p : Pins} {s t : State} (hr : p.rst = false) (h : performPins p s = .next t) :
    s.block.LatchedIn t.block := by
  rcases performPins_cases p s with
    ⟨hr', -⟩ | ⟨-, -, ht⟩ | ⟨-, -, -, ht⟩ | ⟨-, -, -, -, ht⟩ | ⟨-, -, -, i, -, -, ht⟩
  · exact absurd hr' (by simp [hr])
  all_goals cases ht.symm.trans h
  · exact .refl _
  · exact .refl _
  · exact .raiseFault _ _ _
  · exact .effectOf i _

/-- Presentations without `rst`, one after the other, always answer a next state, and it has what the one before had. -/
theorem presentAll_latches (ps : List Pins) :
    ∀ s : State, NoReset ps → ∃ t, presentAll ps s = .next t ∧ s.block.LatchedIn t.block := by
  induction ps with
  | nil => exact fun s _ => ⟨s, rfl, .refl _⟩
  | cons p ps ih =>
    intro s noReset
    obtain ⟨b, hb⟩ := performPins_next p s
    obtain ⟨t, ht, latched⟩ := ih { s with block := b } fun q hq => noReset q (List.mem_cons_of_mem p hq)
    exact ⟨t, (presentAll_cons_of_next ps hb).trans ht,
      (performPins_latches (noReset p List.mem_cons_self) hb).trans latched⟩

/-! ## A new session's identity (R105, R111) -/

theorem presentAll_append_of_next {ps : List Pins} (qs : List Pins) :
    ∀ {s t : State}, presentAll ps s = .next t → presentAll (ps ++ qs) s = presentAll qs t := by
  induction ps with
  | nil =>
    intro s t h
    cases h
    rfl
  | cons p ps ih =>
    intro s t h
    obtain ⟨b, hb⟩ := performPins_next p s
    rw [presentAll_cons_of_next ps hb] at h
    rw [List.cons_append, presentAll_cons_of_next _ hb, ih h]

/-- The block accepts no identity before a `Reset`: it is frozen or has one. -/
def Block.NeedsReset (b : Block) : Prop := b.err ≠ 0x00#8 ∨ b.idv = true

theorem Block.NeedsReset.of_latchedIn {b c : Block} (h : b.NeedsReset) (latched : b.LatchedIn c) : c.NeedsReset := by
  obtain ⟨-, idv, -, err⟩ := latched
  exact h.imp err idv

/-- After a `DECI`, in any state, no other is accepted before a `Reset`; and if that was so before it, the block is
faulted. -/
theorem performPins_deci (byte : Byte) (s : State) :
    ∃ t, performPins (Pins.command (encode (.deci byte))) s = .next t ∧ t.block.NeedsReset ∧
      (s.block.NeedsReset → t.block.err ≠ 0x00#8) := by
  by_cases live : s.block.err = 0x00#8
  · refine ⟨_, performPins_encode (.deci byte) live, ?_⟩
    rw [effectOf]
    rcases identify_cases byte s.block with ⟨-, hb⟩ | ⟨undecoded, hb⟩ <;> rw [hb]
    · exact ⟨.inl (faultCode_ne_zero .identityLocked), fun _ => faultCode_ne_zero .identityLocked⟩
    · exact ⟨.inr rfl, fun needs => absurd needs (by simp [Block.NeedsReset, live, undecoded])⟩
  · exact ⟨s, performPins_frozen (Pins.command_rst _) live, .inl live, fun _ => live⟩

/-! ## A host that looks at `err` (R113) -/

/-- What the host does in a `read_once` that finds a fault: both reads and the presentations, and no more. -/
def faultedDoings (convert : Bool) (msb lsb : Byte) : List Action :=
  [.bus readMsbOp, .bus readLsbOp] ++ samplePresentations convert msb lsb

theorem faultedDoings_records (convert : Bool) (msb lsb : Byte) :
    (faultedDoings convert msb lsb).filterMap Action.record? = [] := by cases convert <;> rfl

theorem publish_notMem_faultedDoings (convert : Bool) (msb lsb : Byte) (time : Nat) (temp : Option TempCode)
    (ok : Option Bool) : .publish time temp ok ∉ faultedDoings convert msb lsb := by
  cases convert <;> simp [faultedDoings, samplePresentations]

/-- The session after such a `read_once`. -/
def Session.afterFaultedRead (r : ReadInputs) (msb lsb : Byte) (h : Session) : Session :=
  { h with readBefore := true, trace := h.trace ++ faultedDoings r.convert msb lsb }

@[simp] theorem Session.afterFaultedRead_records (r : ReadInputs) (msb lsb : Byte) (h : Session) :
    (h.afterFaultedRead r msb lsb).records = h.records := by
  rw [Session.records_of_trace (h := h) rfl, faultedDoings_records, List.append_nil]

/-- A faulted block drops the command presented, and the event goes on. -/
theorem presentThen_command_frozen (i : Instr) {h : Session} (go : Session → HostResult)
    (frozen : h.machine.block.err ≠ 0x00#8) :
    presentThen (Pins.command (encode i)) h go = go (h.act (.present (Pins.command (encode i)))) :=
  presentThen_of_next go (performPins_frozen (Pins.command_rst _) frozen)

/-- A faulted block drops the sample's commands, and the look at `err` ends the event. -/
theorem presentSample_frozen (r : ReadInputs) (msb lsb : Byte) {h : Session} (frozen : h.machine.block.err ≠ 0x00#8) :
    presentSample r msb lsb h =
      .next ({ h with trace := h.trace ++ samplePresentations r.convert msb lsb }, some .blockFault) := by
  refine Eq.trans (presentThen_command_frozen (.dect msb lsb) _ frozen) ?_
  cases r.convert with
  | true =>
    rw [if_pos rfl]
    refine Eq.trans (presentThen_command_frozen (.cvtf msb lsb) _ frozen) (Eq.trans (checkErr_frozen _ _ frozen) ?_)
    simp only [Session.act, List.append_assoc]
    rfl
  | false => exact checkErr_frozen _ _ frozen

theorem readOnce_faulted {r : ReadInputs} {h : Session} {msb lsb : Byte}
    (hp : h.phase = .connected ∨ h.phase = .polling) (frozen : h.machine.block.err ≠ 0x00#8)
    (hm : r.msb = some msb) (hl : r.lsb = some lsb) :
    readOnce r h = .next (h.afterFaultedRead r msb lsb, some .blockFault) := by
  rw [readOnce_of_pollable r hp]
  simp only [readPair, hm, hl]
  refine Eq.trans (presentSample_frozen r msb lsb frozen) ?_
  simp only [Session.act, Session.afterFaultedRead, faultedDoings, List.append_assoc, List.cons_append, List.nil_append]

/-! ## The obligations -/

/-- Settles O11: `Reset` writes R28's values; a step without it keeps what `Block.LatchedIn` names. -/
theorem resetGivesTheResetStateAndOnlyResetClears : Obligations.ResetGivesTheResetStateAndOnlyResetClears := by
  unfold Obligations.ResetGivesTheResetStateAndOnlyResetClears
  refine ⟨fun s p rest hs hr => ?_, fun s t noReset h => ?_⟩
  · exact ⟨_, (step_input hs).trans (performPins_reset _ hr), rfl, rfl, rfl, rfl, rfl, rfl, rfl, rfl, rfl, rfl, rfl,
      rfl, rfl, Block.reset_stat, rfl⟩
  · cases hs : s.inputs with
    | nil =>
      cases (step_no_input hs).symm.trans h
      exact Block.LatchedIn.refl _
    | cons p rest =>
      exact performPins_latches (s := { s with inputs := rest }) (noReset p (by rw [hs]; rfl))
        ((step_input hs).symm.trans h)

/-- Settles O41: the block stays live through the three commands; the last `DECT` writes neither `FAHR` nor `FV`. -/
theorem fahrenheitCanBeStaleBesideANewSample : Obligations.FahrenheitCanBeStaleBesideANewSample := by
  unfold Obligations.FahrenheitCanBeStaleBesideANewSample
  intro s m1 l1 m2 l2 live
  have first := presentAll_encode_cons (.dect m1 l1)
    [Pins.command (encode (.cvtf m1 l1)), Pins.command (encode (.dect m2 l2))] live
  have converted := presentAll_encode_cons (.cvtf m1 l1) [Pins.command (encode (.dect m2 l2))]
    (s := { s with block := effectOf (.dect m1 l1) s.block }) live
  have second := presentAll_encode_cons (.dect m2 l2) []
    (s := { s with block := effectOf (.cvtf m1 l1) (effectOf (.dect m1 l1) s.block) }) live
  exact ⟨_, first.trans (converted.trans second), rfl⟩

/-- Settles O43: after the first `DECI` the block needs a `Reset`, which nothing presented between can change, so the
second one leaves it faulted; a reset block takes the identity. -/
theorem newSessionNeedsAReset : Obligations.NewSessionNeedsAReset := by
  unfold Obligations.NewSessionNeedsAReset
  refine ⟨fun s ps id1 id2 noReset => ?_, fun s byte => ?_⟩
  · obtain ⟨t, first, needs, -⟩ := performPins_deci id1 s
    obtain ⟨u, between, latched⟩ := presentAll_latches ps t noReset
    obtain ⟨v, second, -, faulted⟩ := performPins_deci id2 u
    refine ⟨v, ?_, faulted (needs.of_latchedIn latched)⟩
    rw [presentAll_cons_of_next _ first, presentAll_append_of_next _ between, presentAll_cons_of_next _ second]
    rfl
  · exact ⟨_, (presentAll_cons_of_next _ (performPins_reset s Pins.reset_rst)).trans
      (presentAll_encode_cons (.deci byte) [] rfl), rfl, rfl, rfl⟩

/-- Settles O53: the read is `readOnce_faulted`, whose doings record and publish nothing; the loop logs the fault and
ends. -/
theorem hostUsesNoResultOfAFaultedBlock : Obligations.HostUsesNoResultOfAFaultedBlock := by
  unfold Obligations.HostUsesNoResultOfAFaultedBlock
  intro h r msb lsb rest publishOnly time hp frozen hm hl
  have hr := readOnce_faulted hp frozen hm hl
  obtain ⟨-, lmachine, -, lrecords, -⟩ := logEnd_fields (some .blockFault) (h.afterFaultedRead r msb lsb)
  refine ⟨⟨_, hr, rfl, rfl, h.afterFaultedRead_records r msb lsb, fun t temp ok published => ?_⟩,
    ⟨_, pollLoop_ends rest time hr rfl hp, lmachine, rfl, rfl, ?_⟩⟩
  · exact (List.mem_append.mp published).resolve_right (publish_notMem_faultedDoings r.convert msb lsb t temp ok)
  · rw [Session.ended_records, lrecords, Session.afterFaultedRead_records]

end Sys2Proof.Machine
end
